-- ==== Sys2Proof/Word.lean ====
section
/-! DEFINITION. The byte type (00_scope.md R12, R13). -/

namespace Sys2Proof

/-- A byte: 8 bits numbered 7 (most significant) to 0 (R12). A byte string (R13) is a `List Byte`. -/
abbrev Byte := BitVec 8

end Sys2Proof
end

