-- ==== Sys2Proof/Config.lean ====
section
/-! DEFINITION. The implementation parameters of 00_scope.md section 3, fixed before START and never changed (R291). State
holds them, so a statement about every state holds for every value of them (log 3). And the model's free value, the bytes
of a peer whose sequence has no end (log 6). -/

namespace Sys2Proof

/-- When the decoder reads the masking key (R10, conflict C1): exactly when MASK is 1, or in every frame. -/
inductive MaskKeyPolicy
  | conditional
  | unconditional
  deriving DecidableEq, Repr

/-- The parameters a model takes as arguments (00_scope.md section 3). -/
structure Params where
  /-- `MAX_PAYLOAD`, the largest `declared_length` the payload buffer holds (R9); OPEN in the spec. -/
  maxPayload        : BitVec 64
  /-- `MASK_KEY_POLICY` (R10). -/
  maskKeyPolicy     : MaskKeyPolicy
  /-- `UPGRADE_STATUS_LINE` (R235). -/
  upgradeStatusLine : List Byte
  /-- `ACCEPT_HEADER_NAME` (R235). -/
  acceptHeaderName  : List Byte
  /-- `WS_GUID` (R231). -/
  wsGuid            : List Byte
  deriving DecidableEq, Repr

namespace Config

/-- A free value: byte `i` of the `k`-th of the byte sequences without an end that a peer may send (20_memory.md R51;
log 6). -/
opaque peerByte (k i : Nat) : Byte

/-- `HTTP/1.1 101 Switching Protocols` (R235; PRESUMED, general-knowledge item G7, log 15). -/
def upgradeStatusLine : List Byte :=
  [0x48, 0x54, 0x54, 0x50, 0x2f, 0x31, 0x2e, 0x31, 0x20, 0x31, 0x30, 0x31, 0x20] ++
  [0x53, 0x77, 0x69, 0x74, 0x63, 0x68, 0x69, 0x6e, 0x67, 0x20] ++
  [0x50, 0x72, 0x6f, 0x74, 0x6f, 0x63, 0x6f, 0x6c, 0x73]

/-- `Sec-WebSocket-Accept` (R235; PRESUMED, general-knowledge item G7, log 15). -/
def acceptHeaderName : List Byte :=
  [0x53, 0x65, 0x63, 0x2d, 0x57, 0x65, 0x62, 0x53, 0x6f, 0x63, 0x6b, 0x65, 0x74, 0x2d] ++
  [0x41, 0x63, 0x63, 0x65, 0x70, 0x74]

/-- `258EAFA5-E914-47DA-95CA-C5AB0DC85B11` (R231; PRESUMED, general-knowledge item G1, log 15). -/
def wsGuid : List Byte :=
  [0x32, 0x35, 0x38, 0x45, 0x41, 0x46, 0x41, 0x35, 0x2d] ++
  [0x45, 0x39, 0x31, 0x34, 0x2d, 0x34, 0x37, 0x44, 0x41, 0x2d] ++
  [0x39, 0x35, 0x43, 0x41, 0x2d] ++
  [0x43, 0x35, 0x41, 0x42, 0x30, 0x44, 0x43, 0x38, 0x35, 0x42, 0x31, 0x31]

/-- KEY0, the handshake key `dGhlIHNhbXBsZSBub25jZQ==` that the spec's programs carry in START (95_test_vectors.md
section 3, R237). -/
def sampleKey : List Byte :=
  [0x64, 0x47, 0x68, 0x6c, 0x49, 0x48, 0x4e, 0x68, 0x62, 0x58, 0x42, 0x73] ++
  [0x5a, 0x53, 0x42, 0x75, 0x62, 0x32, 0x35, 0x6a, 0x5a, 0x51, 0x3d, 0x3d]

end Config

/-- The normative parameter values: `Conditional` (R10), the literals of R231 and R235, and the `MAX_PAYLOAD` that
95_test_vectors.md assumes (DESIGN CHOICE, log 3: the spec leaves it OPEN). -/
def Params.normative : Params :=
  { maxPayload        := 0xFFFFFFFFFFFFFFFF
    maskKeyPolicy     := .conditional
    upgradeStatusLine := Config.upgradeStatusLine
    acceptHeaderName  := Config.acceptHeaderName
    wsGuid            := Config.wsGuid }

end Sys2Proof
end

