-- ==== Sys2Proof/Syntax.lean ====
section
/-! DEFINITION. The instructions of WSCORE: frames, one constructor per row of spec/opcode_table.json
(30_encoding.md R70 to R82; operands as in the frame notation R90). -/

namespace Sys2Proof

/-- The three length forms (R74). -/
inductive LenForm
  | short
  | ext16
  | ext64
  deriving DecidableEq, Repr

/-- A masking key, its four bytes in wire order (R81). -/
structure Key where
  k0 : Byte
  k1 : Byte
  k2 : Byte
  k3 : Byte
  deriving DecidableEq, Repr

/-- The operand fields of a frame on the wire (R70, R90): what the opcode leaves free. -/
structure FrameOps where
  /-- FIN, 1 means final (R71). -/
  fin     : Bool
  /-- The three reserved bits, RSV1 the most significant (R73). -/
  rsv     : BitVec 3
  /-- MASK (R72). -/
  masked  : Bool
  /-- The length form that the 7-bit length field selects (R74). -/
  form    : LenForm
  /-- `declared_length` (R80). -/
  len     : BitVec 64
  /-- The masking key, when one is on the wire (R79). -/
  key     : Option Key
  /-- The payload, unmasked (R90). -/
  payload : List Byte
  deriving DecidableEq, Repr

/-- A frame by its opcode: the closed tagged variant produced once at decode (10_state.md R35, opcode map R78). -/
inductive Instr
  | cont   (f : FrameOps)
  | text   (f : FrameOps)
  | binary (f : FrameOps)
  | rsv3   (f : FrameOps)
  | rsv4   (f : FrameOps)
  | rsv5   (f : FrameOps)
  | rsv6   (f : FrameOps)
  | rsv7   (f : FrameOps)
  | close  (f : FrameOps)
  | ping   (f : FrameOps)
  | pong   (f : FrameOps)
  | rsv11  (f : FrameOps)
  | rsv12  (f : FrameOps)
  | rsv13  (f : FrameOps)
  | rsv14  (f : FrameOps)
  | rsv15  (f : FrameOps)
  deriving DecidableEq, Repr

/-- The operand fields of an instruction, whichever its opcode. -/
def Instr.ops : Instr → FrameOps
  | .cont f | .text f | .binary f | .rsv3 f | .rsv4 f | .rsv5 f | .rsv6 f | .rsv7 f
  | .close f | .ping f | .pong f | .rsv11 f | .rsv12 f | .rsv13 f | .rsv14 f | .rsv15 f => f

/-- The frame value of the pure functions (10_state.md R34). -/
structure Frame where
  fin     : Bool
  rsv     : BitVec 3
  opcode  : BitVec 4
  masked  : Bool
  length  : BitVec 64
  payload : List Byte
  deriving DecidableEq, Repr

/-- The outcome of decoding a byte string (40_frame_decode.md R112): not enough bytes yet, a length above
`MAX_PAYLOAD` (with the bytes consumed up to there), or a whole frame and the bytes it took. -/
inductive DecodeResult (α : Type)
  | needMore
  | tooLarge (length : BitVec 64) (consumed : Nat)
  | complete (value : α) (consumed : Nat)
  deriving DecidableEq, Repr

end Sys2Proof
end

