-- ==== Sys2Proof/WellFormed.lean ====
section
/-! DEFINITION. When an instruction's operands are a frame that the wire can carry and the decoder takes whole
(30_encoding.md R74, R79, R90; 40_frame_decode.md R106). Frames that break a protocol rule are well-formed here: they
decode, and the validator judges them (R83, R114). -/

namespace Sys2Proof

/-- The ways operands can fail to be a frame on the wire, one per check. -/
inductive IllFormed
  /-- the length form cannot hold the length (R74) -/
  | lengthForm
  /-- the payload's length is not the declared length (R32, R34) -/
  | payloadLength
  /-- a key is present where the policy puts none on the wire, or absent where it puts one (R79) -/
  | maskingKey
  /-- the declared length is above `MAX_PAYLOAD` (R106) -/
  | payloadTooLarge
  deriving DecidableEq, Repr

/-- Whether a length form holds a length (R74): at most 125, at most 65535, or any 64-bit value; a form need not be
minimal (R85). -/
def LenForm.holds : LenForm → BitVec 64 → Bool
  | .short, n => n.toNat ≤ 125
  | .ext16, n => n.toNat ≤ 65535
  | .ext64, _ => true

/-- The first check that fails, if any. -/
def FrameOps.illFormed (p : Params) (f : FrameOps) : Option IllFormed :=
  if f.form.holds f.len = false then some .lengthForm
  else if f.payload.length ≠ f.len.toNat then some .payloadLength
  else if f.key.isSome ≠ (p.maskKeyPolicy == .unconditional || f.masked) then some .maskingKey
  else if p.maxPayload.toNat < f.len.toNat then some .payloadTooLarge
  else none

/-- An instruction is well-formed under the parameters `p` when no check fails. -/
abbrev WellFormed (p : Params) (i : Instr) : Prop := i.ops.illFormed p = none

end Sys2Proof
end

