-- ==== Sys2Proof/Decode.lean ====
section
/-! DEFINITION. The decoder as a function of the bytes (40_frame_decode.md R112), the mask applicator (R108), the byte
order helpers (00_scope.md R13), and the encoder of an instruction's wire bytes (30_encoding.md R90). -/

namespace Sys2Proof

/-! ## Byte order (R13, R58) -/

/-- `be16(x, y)` (R13). -/
def be16 (x y : Byte) : BitVec 16 := x ++ y

/-- The big-endian value of a byte string, the first byte the most significant (R13). -/
def beNat (s : List Byte) : Nat := s.foldl (fun v b => v * 256 + b.toNat) 0

/-- `be64` of an eight-byte string (R13). -/
def be64 (s : List Byte) : BitVec 64 := BitVec.ofNat 64 (beNat s)

/-- `be16bytes(v)` (R13). -/
def be16bytes (v : BitVec 16) : List Byte := [v.extractLsb' 8 8, v.extractLsb' 0 8]

/-- `be64bytes(v)` (R13). -/
def be64bytes (v : BitVec 64) : List Byte :=
  [v.extractLsb' 56 8, v.extractLsb' 48 8, v.extractLsb' 40 8, v.extractLsb' 32 8] ++
  [v.extractLsb' 24 8, v.extractLsb' 16 8, v.extractLsb' 8 8, v.extractLsb' 0 8]

/-! ## The mask applicator (R108) -/

/-- `k[i mod 4]` (R81). -/
def Key.lane (k : Key) (i : Nat) : Byte :=
  match i % 4 with
  | 0 => k.k0
  | 1 => k.k1
  | 2 => k.k2
  | _ => k.k3

/-- The bytes of `p`, the first of them at index `i`, each XORed with its lane of the key. -/
def maskFrom (k : Key) : Nat → List Byte → List Byte
  | _, []      => []
  | i, b :: bs => (b ^^^ k.lane i) :: maskFrom k (i + 1) bs

/-- `apply_mask(p, k)`: byte `i` XORed with `k[i mod 4]` (R108). -/
def applyMask (p : List Byte) (k : Key) : List Byte := maskFrom k 0 p

/-- The four bytes of a key in wire order (R81). -/
def Key.bytes (k : Key) : List Byte := [k.k0, k.k1, k.k2, k.k3]

/-! ## Header fields (R71 to R74, R79) -/

/-- FIN is bit 7 of byte 0 (R71). -/
def finBit (b0 : Byte) : Bool := b0.getLsbD 7

/-- The reserved bits are bits 6 to 4 of byte 0 (R73). -/
def rsvBits (b0 : Byte) : BitVec 3 := b0.extractLsb' 4 3

/-- The opcode is bits 3 to 0 of byte 0 (R71). -/
def opcodeBits (b0 : Byte) : BitVec 4 := b0.extractLsb' 0 4

/-- MASK is bit 7 of byte 1 (R72). -/
def maskBit (b1 : Byte) : Bool := b1.getLsbD 7

/-- The 7-bit length field is bits 6 to 0 of byte 1 (R72). -/
def len7Bits (b1 : Byte) : BitVec 7 := b1.extractLsb' 0 7

/-- Byte 0 from its fields (R71, R90). -/
def byte0 (fin : Bool) (rsv : BitVec 3) (opcode : BitVec 4) : Byte := BitVec.ofBool fin ++ rsv ++ opcode

/-- Byte 1 from its fields (R72, R90). -/
def byte1 (masked : Bool) (len7 : BitVec 7) : Byte := BitVec.ofBool masked ++ len7

/-- The length form that the 7-bit length field selects (R74). -/
def LenForm.ofLen7 (len7 : BitVec 7) : LenForm :=
  if len7.toNat ≤ 125 then .short else if len7.toNat = 126 then .ext16 else .ext64

/-- The 7-bit length field of a form and a length (R74). -/
def LenForm.len7 : LenForm → BitVec 64 → BitVec 7
  | .short, n => n.setWidth 7
  | .ext16, _ => 126
  | .ext64, _ => 127

/-- The number of extended-length bytes of a form: 0, 2 or 8 (R75). -/
def LenForm.extBytes : LenForm → Nat
  | .short => 0
  | .ext16 => 2
  | .ext64 => 8

/-- The header's length in bytes: 2, plus the extended length, plus 4 when a key is present (R75). -/
def headerLength (form : LenForm) (keyPresent : Bool) : Nat := 2 + form.extBytes + if keyPresent then 4 else 0

/-- Whether a masking key is on the wire (`keyed` of R100; R79, R105). -/
def keyed (p : Params) (masked : Bool) : Bool := p.maskKeyPolicy == .unconditional || masked

/-! ## Opcodes (R78) -/

/-- The opcode of an instruction (R78). -/
def Instr.opcode : Instr → BitVec 4
  | .cont _   => 0
  | .text _   => 1
  | .binary _ => 2
  | .rsv3 _   => 3
  | .rsv4 _   => 4
  | .rsv5 _   => 5
  | .rsv6 _   => 6
  | .rsv7 _   => 7
  | .close _  => 8
  | .ping _   => 9
  | .pong _   => 10
  | .rsv11 _  => 11
  | .rsv12 _  => 12
  | .rsv13 _  => 13
  | .rsv14 _  => 14
  | .rsv15 _  => 15

/-- The instruction an opcode selects (R78); the last arm is 15, the one value left of a 4-bit field. -/
def Instr.ofOpcode (op : BitVec 4) (f : FrameOps) : Instr :=
  match op.toNat with
  | 0 => .cont f
  | 1 => .text f
  | 2 => .binary f
  | 3 => .rsv3 f
  | 4 => .rsv4 f
  | 5 => .rsv5 f
  | 6 => .rsv6 f
  | 7 => .rsv7 f
  | 8 => .close f
  | 9 => .ping f
  | 10 => .pong f
  | 11 => .rsv11 f
  | 12 => .rsv12 f
  | 13 => .rsv13 f
  | 14 => .rsv14 f
  | _ => .rsv15 f

/-- The frame that operands make with an opcode (R34). -/
def FrameOps.frame (f : FrameOps) (op : BitVec 4) : Frame :=
  { fin := f.fin, rsv := f.rsv, opcode := op, masked := f.masked, length := f.len, payload := f.payload }

/-- The frame an instruction stands for (R34). -/
def Instr.frame (i : Instr) : Frame := i.ops.frame i.opcode

/-! ## The decoder (R112) -/

/-- The length of a frame and the bytes after the length fields, by the 7-bit field (R74, R80). -/
def decodeLength (len7 : BitVec 7) (s : List Byte) : Option (BitVec 64 × List Byte) :=
  match LenForm.ofLen7 len7, s with
  | .short, s => some (len7.setWidth 64, s)
  | .ext16, e0 :: e1 :: r => some ((be16 e0 e1).setWidth 64, r)
  | .ext16, _ => none
  | .ext64, e0 :: e1 :: e2 :: e3 :: e4 :: e5 :: e6 :: e7 :: r => some (be64 [e0, e1, e2, e3, e4, e5, e6, e7], r)
  | .ext64, _ => none

/-- The masking key, when one is on the wire, and the bytes after it (R79, R81). -/
def decodeKey (present : Bool) (s : List Byte) : Option (Option Key × List Byte) :=
  match present, s with
  | false, s => some (none, s)
  | true, k0 :: k1 :: k2 :: k3 :: r => some (some ⟨k0, k1, k2, k3⟩, r)
  | true, _ => none

/-- A payload as the frame register set holds it: unmasked when a key came with it (R109). -/
def unmask (raw : List Byte) (key : Option Key) : List Byte :=
  match key with
  | some k => applyMask raw k
  | none   => raw

/-- The instruction at the front of a byte string, total on any bytes (R112). -/
def decode (p : Params) (s : List Byte) : DecodeResult Instr :=
  match s with
  | b0 :: b1 :: r =>
    match decodeLength (len7Bits b1) r with
    | none => .needMore
    | some (len, r) =>
      match decodeKey (keyed p (maskBit b1)) r with
      | none => .needMore
      | some (key, r) =>
        let header := headerLength (LenForm.ofLen7 (len7Bits b1)) (keyed p (maskBit b1))
        if p.maxPayload.toNat < len.toNat then .tooLarge len header
        else if r.length < len.toNat then .needMore
        else
          .complete
            (Instr.ofOpcode (opcodeBits b0)
              { fin := finBit b0, rsv := rsvBits b0, masked := maskBit b1, form := LenForm.ofLen7 (len7Bits b1)
                len := len, key := key, payload := unmask (r.take len.toNat) key })
            (header + len.toNat)
  | _ => .needMore

/-- A decoding outcome with its value changed. -/
def DecodeResult.map {α β : Type} (g : α → β) : DecodeResult α → DecodeResult β
  | .needMore => .needMore
  | .tooLarge len n => .tooLarge len n
  | .complete v n => .complete (g v) n

/-- `decode_bytes(s)` (R112): the decoder's outcome as a frame. -/
def decodeBytes (p : Params) (s : List Byte) : DecodeResult Frame := (decode p s).map Instr.frame

/-! ## The encoder of an instruction (R90) -/

/-- The extended length bytes of a form (R74). -/
def encodeExt : LenForm → BitVec 64 → List Byte
  | .short, _ => []
  | .ext16, n => be16bytes (n.setWidth 16)
  | .ext64, n => be64bytes n

/-- The key bytes on the wire (R81). -/
def encodeKey : Option Key → List Byte
  | none   => []
  | some k => k.bytes

/-- The bytes of an instruction on the wire, in order: byte 0, byte 1, extended length, key, payload (R70, R90). -/
def encodeInstr (i : Instr) : List Byte :=
  [byte0 i.ops.fin i.ops.rsv i.opcode, byte1 i.ops.masked (i.ops.form.len7 i.ops.len)] ++
    encodeExt i.ops.form i.ops.len ++ encodeKey i.ops.key ++ unmask i.ops.payload i.ops.key

/-! ## Opcode-table words -/

/-- The bytes of an opcode-table word: byte 0 is bits 15 to 8, byte 1 bits 7 to 0 (DEDUCED, log 14), then as many zero
bytes as the longest extended length, the key and the payload of this word can take. -/
def tableBytes (w : Nat) : List Byte :=
  [BitVec.ofNat 8 (w / 256), BitVec.ofNat 8 w] ++ List.replicate (12 + w % 128) 0

/-- The instruction the decoder reads from an opcode-table word of `nbits` bits (every row has 16). -/
def decodeTableWord (nbits w : Nat) : Option Instr :=
  if nbits = 16 then
    match decode Params.normative (tableBytes w) with
    | .complete i _ => some i
    | _ => none
  else none

end Sys2Proof
end

