-- ==== Sys2Proof/Machine/State.lean ====
section
/-! DEFINITION. The state of WSCORE (10_state.md, 20_memory.md section 1), the reasons a step can stop, and the state
after START (70_reset_and_hazards.md R290). -/

namespace Sys2Proof.Machine

/-- `STATE` (R21). -/
inductive ConnState
  | handshaking
  | opened
  | closing
  | closed
  deriving DecidableEq, Repr

/-- `PHASE` (R22). -/
inductive Phase
  | hsStart
  | hsSend
  | rxHdr
  | rxExt
  | rxKey
  | rxPay
  | check
  | reply
  | clSend
  | clClose
  | done
  deriving DecidableEq, Repr

/-- `ERR` (R25). -/
inductive ErrCode
  | none
  | ioFailure
  | resourceExhausted
  | handshakeFailure
  deriving DecidableEq, Repr

/-- The violation kinds (R170). -/
inductive ViolationKind
  | unmasked
  | controlShape
  | reservedOpcode
  | reservedBits
  | invalidText
  | invalidCloseCode
  | invalidCloseReason
  | closeLength1
  deriving DecidableEq, Repr

/-- `VERDICT`: `Ok`, or a violation kind with its close code (R28, R150). -/
inductive Verdict
  | ok
  | err (kind : ViolationKind) (code : BitVec 16)
  deriving DecidableEq, Repr

/-- The causes of an `IoFailure` (R261). -/
inductive IoCause
  | shortRead
  | streamError
  | writeError
  deriving DecidableEq, Repr

/-- The exceptions of the block (R260). -/
inductive Exn
  | ioFailure (cause : IoCause)
  | resourceExhausted (length : BitVec 64)
  | handshakeFailure
  deriving DecidableEq, Repr

/-- What follows the listed bytes of the RX stream: nothing, or a sequence without an end (R51), which repeats the bytes
`b :: bs` or is one of the sequences of `Config.peerByte` (log 6). -/
inductive RxTail
  | none
  | cycle (b : Byte) (bs : List Byte)
  | free (k : Nat)
  deriving DecidableEq, Repr

/-- What the RX stream answers once its bytes are exhausted (R51); `never` is the spec's `None`. -/
inductive RxEnd
  | never
  | eof
  | error
  deriving DecidableEq, Repr

/-- An answer of the TX stream (R42): all of the string was written, or an error after `reached` of its bytes reached
the peer (any prefix, R56, 93 U3; log 7). -/
inductive TxAnswer
  | done
  | error (reached : Nat)
  deriving DecidableEq, Repr

/-- The coming answers of a stream (R54, R55; log 4): the listed ones, then `again` over and over; no more answer where
`again` is empty. -/
structure Answers (α : Type) where
  listed : List α
  again  : List α
  deriving DecidableEq, Repr

/-- The state of one instance. -/
structure State where
  /-- the parameters of 00_scope.md section 3, fixed before START (R291; log 3) -/
  params       : Params
  /-- `STATE` (R21) -/
  conn         : ConnState
  /-- `PHASE` (R22) -/
  phase        : Phase
  /-- `STATUS` (R23) -/
  status       : BitVec 16
  /-- `ERR` (R25) -/
  err          : ErrCode
  /-- `CLOSE_SENT` (R26) -/
  closeSent    : Bool
  /-- `STREAM_CLOSED` (R26) -/
  streamClosed : Bool
  /-- `KEY_IN` (R27) -/
  keyIn        : List Byte
  /-- `KEY_PRESENT` (R27) -/
  keyPresent   : Bool
  /-- `F_FIN` (R29) -/
  fFin         : Bool
  /-- `F_RSV` (R31) -/
  fRsv         : BitVec 3
  /-- `F_OPCODE` (R31) -/
  fOpcode      : BitVec 4
  /-- `F_MASK` (R29) -/
  fMask        : Bool
  /-- `F_LEN7` (R31) -/
  fLen7        : BitVec 7
  /-- `F_LEN` (R31) -/
  fLen         : BitVec 64
  /-- `F_KEY[0..3]` (R31) -/
  fKey         : Key
  /-- `F_PAYLOAD` (R31, R36) -/
  fPayload     : List Byte
  /-- `VERDICT` (R28) -/
  verdict      : Verdict
  /-- `TX_BUF` (R37) -/
  txBuf        : List Byte
  /-- `RX_NEED` (R38) -/
  rxNeed       : BitVec 64
  /-- `RX_ACC` (R38) -/
  rxAcc        : List Byte
  /-- the bytes the peer will send, all of them or the first of them (`rx.bytes`, R51) -/
  rxBytes      : List Byte
  /-- the rest of `rx.bytes` where the sequence is unbounded (R51; log 6) -/
  rxTail       : RxTail
  /-- the stream's answer once the bytes are exhausted (`rx.end`, R51) -/
  rxEnd        : RxEnd
  /-- `RX_POS` (R51) -/
  rxPos        : Nat
  /-- `tx_log` (R52) -/
  txLog        : List (List Byte)
  /-- the model's own input: the sizes of the coming RX answers, 0 for `Data([])` (R54; log 4, log 5) -/
  rxCuts       : Answers Nat
  /-- the model's own input: the coming TX answers (R42; log 4) -/
  txAnswers    : Answers TxAnswer
  /-- the model's own input: whether the stream answers a CLOSE request (R43; log 10) -/
  closeAnswers : Bool
  /-- the model's own record: what of a failed write reached the peer (R52, R56; log 7) -/
  txPartial    : List Byte
  deriving DecidableEq, Repr

/-- The reasons a step stops the machine. -/
inductive Fault
  /-- Raised by `step` alone, when `STATE` and `PHASE` disagree: R22 gives every phase its state, so no rule gives such a
  pair an effect and no run reaches one. Safe: the model stops where the spec describes nothing (log 11). -/
  | phaseOutsideState
  deriving DecidableEq, Repr

/-- The reasons an instruction has no meaning. -/
inductive Refusal
  /-- Raised by an arm of `exec` whose instruction has no meaning yet. Safe: no claim about it can be proved. No arm of
  this model raises it. -/
  | notModelled (mnemonic : String)
  deriving DecidableEq, Repr

/-- The state after START (R290, R291): the host gives the parameters, `KEY_PRESENT`, `KEY_IN` and the stream; the
frame registers and `VERDICT`, which the spec leaves unspecified, hold named values (DESIGN CHOICE, log 1). -/
def State.start (params : Params) (keyPresent : Bool) (keyIn : List Byte) (rxBytes : List Byte) (rxTail : RxTail)
    (rxEnd : RxEnd) (rxCuts : Answers Nat) (txAnswers : Answers TxAnswer) (closeAnswers : Bool) : State :=
  { params := params
    conn := .handshaking
    phase := .hsStart
    status := 1000
    err := .none
    closeSent := false
    streamClosed := false
    keyIn := keyIn
    keyPresent := keyPresent
    fFin := false
    fRsv := 0
    fOpcode := 0
    fMask := false
    fLen7 := 0
    fLen := 0
    fKey := ⟨0, 0, 0, 0⟩
    fPayload := []
    verdict := .ok
    txBuf := []
    rxNeed := 0
    rxAcc := []
    rxBytes := rxBytes
    rxTail := rxTail
    rxEnd := rxEnd
    rxPos := 0
    txLog := []
    rxCuts := rxCuts
    txAnswers := txAnswers
    closeAnswers := closeAnswers
    txPartial := [] }

/-- The state right after reset: START with the normative parameters and the key of the spec's programs, on a stream
that has nothing to say yet (DESIGN CHOICE, log 2). -/
def State.reset : State := 
  State.start Params.normative true Config.sampleKey [] .none .never ⟨[], []⟩ ⟨[], []⟩ true

end Sys2Proof.Machine
end

