-- ==== Sys2Proof/Machine/Operands.lean ====
section
/-! DEFINITION. The operand forms of a frame: the close payload (30_encoding.md R87, R88) and the block's own frames
(41_frame_encode.md R130 to R134, 30_encoding.md R89). -/

namespace Sys2Proof.Machine

/-- `close_code(p)`, defined when `p` has at least two bytes (R88). -/
def closeCode : List Byte → Option (BitVec 16)
  | p0 :: p1 :: _ => some (be16 p0 p1)
  | _ => none

/-- `close_reason(p)`: the bytes from index 2 on (R88). -/
def closeReason (p : List Byte) : List Byte := p.drop 2

/-- The header the block writes for a FIN, an opcode and a payload length: reserved bits and MASK 0, the minimal length
form (R131, R132, R133). -/
def frameHeader (fin : Bool) (opcode : BitVec 4) (length : Nat) : List Byte :=
  let b0 := byte0 fin 0 opcode
  if length ≤ 125 then [b0, BitVec.ofNat 8 length]
  else if length ≤ 65535 then [b0, 126] ++ be16bytes (BitVec.ofNat 16 length)
  else [b0, 127] ++ be64bytes (BitVec.ofNat 64 length)

/-- `encode(f)`: the header and the payload unmodified (R130, R134); `rsv` and `masked` are ignored. -/
def encodeFrame (f : Frame) : List Byte := frameHeader f.fin f.opcode f.payload.length ++ f.payload

/-- The frame of the final close: FIN 1, opcode 8, the two bytes of `STATUS` (R206). -/
def closeFrame (status : BitVec 16) : Frame :=
  { fin := true, rsv := 0, opcode := 8, masked := false, length := 2, payload := be16bytes status }

end Sys2Proof.Machine
end

