-- ==== Sys2Proof/Machine/Utf8.lean ====
section
/-! DEFINITION. UTF-8 well-formedness (42_frame_validate.md R167, R168; PRESUMED, general-knowledge item G4, log 15). -/

namespace Sys2Proof.Machine

/-- The rows of the table of well-formed sequences, each a list of byte ranges (R168). -/
def utf8Rows : List (List (Nat × Nat)) :=
  [ [(0x00, 0x7F)],
    [(0xC2, 0xDF), (0x80, 0xBF)],
    [(0xE0, 0xE0), (0xA0, 0xBF), (0x80, 0xBF)],
    [(0xE1, 0xEC), (0x80, 0xBF), (0x80, 0xBF)],
    [(0xED, 0xED), (0x80, 0x9F), (0x80, 0xBF)],
    [(0xEE, 0xEF), (0x80, 0xBF), (0x80, 0xBF)],
    [(0xF0, 0xF0), (0x90, 0xBF), (0x80, 0xBF), (0x80, 0xBF)],
    [(0xF1, 0xF3), (0x80, 0xBF), (0x80, 0xBF), (0x80, 0xBF)],
    [(0xF4, 0xF4), (0x80, 0x8F), (0x80, 0xBF), (0x80, 0xBF)] ]

/-- Whether the front of a byte string matches every range of a row; every byte must exist (R168). -/
def matchesRow : List (Nat × Nat) → List Byte → Bool
  | [], _ => true
  | _ :: _, [] => false
  | (lo, hi) :: row, b :: s => decide (lo ≤ b.toNat) && decide (b.toNat ≤ hi) && matchesRow row s

/-- `seq_len_at`: the length of the first row that matches the front of the string, else 0 (R168). -/
def seqLen (s : List Byte) : Nat :=
  match utf8Rows.find? (fun row => matchesRow row s) with
  | some row => row.length
  | none => 0

/-- The loop of `utf8_valid` (R167): pass over `skip` more bytes of the sequence begun, then start the next. -/
def utf8Scan : Nat → List Byte → Bool
  | 0, [] => true
  | _ + 1, [] => false
  | skip + 1, _ :: s => utf8Scan skip s
  | 0, b :: s =>
    match seqLen (b :: s) with
    | 0 => false
    | n + 1 => utf8Scan n s

/-- `utf8_valid(s)` (R167). -/
def utf8Valid (s : List Byte) : Bool := utf8Scan 0 s

end Sys2Proof.Machine
end

