-- ==== Sys2Proof/Machine/Flags.lean ====
section
/-! DEFINITION. The verdict on a frame: the classification functions (30_encoding.md R76, R77), the close-code registry
(42_frame_validate.md R165, R166) and the validator (R150 to R162, R171). -/

namespace Sys2Proof.Machine

/-- `is_control(op) = op[3]` (R76, conflict C2). -/
def isControl (op : BitVec 4) : Bool := op.getLsbD 3

/-- `is_reserved_opcode(op)`: 3 to 7 and 11 to 15 (R77). -/
def isReservedOpcode (op : BitVec 4) : Bool :=
  (decide (3 ≤ op.toNat) && decide (op.toNat ≤ 7)) || (decide (11 ≤ op.toNat) && decide (op.toNat ≤ 15))

/-- The close-code registry (R165), read-only reference data (R39). -/
def closeCodeRegistry : List Nat := [1000, 1001, 1002, 1003, 1007, 1008, 1009, 1010, 1011]

/-- `close_code_legal(c)` (R166). -/
def closeCodeLegal (c : BitVec 16) : Bool :=
  decide (c.toNat < 5000) && (decide (3000 ≤ c.toNat) || closeCodeRegistry.contains c.toNat)

/-- The close code of a violation kind (R171). -/
def ViolationKind.code : ViolationKind → BitVec 16
  | .unmasked | .controlShape | .reservedOpcode | .reservedBits | .invalidCloseCode | .closeLength1 => 1002
  | .invalidText | .invalidCloseReason => 1007

/-- `Err(kind, code)` with the code of the kind (R171). -/
def violation (k : ViolationKind) : Verdict := .err k k.code

/-- Check 6, the close payload (R157): length 1, then the code, then the reason (R158 to R161). A payload too short for
a code where the length says at least two breaks R32; it carries no legal code (log 13). -/
def validateClose (f : Frame) : Verdict :=
  if f.length = 1 then violation .closeLength1
  else if 2 ≤ f.length.toNat then
    match closeCode f.payload with
    | none => violation .invalidCloseCode
    | some c =>
      if closeCodeLegal c = false then violation .invalidCloseCode
      else if utf8Valid (closeReason f.payload) = false then violation .invalidCloseReason
      else .ok
  else .ok

/-- `validate(f)`: the first failing check in the source's order (R151). -/
def validate (f : Frame) : Verdict :=
  if f.masked = false then violation .unmasked
  else if isControl f.opcode ∧ (125 < f.length.toNat ∨ f.fin = false) then violation .controlShape
  else if isReservedOpcode f.opcode then violation .reservedOpcode
  else if f.rsv ≠ 0 then violation .reservedBits
  else if f.opcode = 1 ∧ f.fin = true ∧ utf8Valid f.payload = false then violation .invalidText
  else if f.opcode = 8 then validateClose f
  else .ok

end Sys2Proof.Machine
end

