-- ==== Sys2Proof/Machine/Ops.lean ====
section
/-! DEFINITION. The operations that several phases share: the error entry (60_exceptions.md R262), the streams and the port
primitives (20_memory.md R51 to R57), the frame in flight (10_state.md R31, R34), REPORT (R44). -/

namespace Sys2Proof.Machine

/-! ## The codes and views the host sees -/

/-- The 2-bit code of `STATE` (R21). -/
def ConnState.code : ConnState → BitVec 2
  | .handshaking => 0
  | .opened => 1
  | .closing => 2
  | .closed => 3

/-- The 2-bit code of `ERR` (R25). -/
def ErrCode.code : ErrCode → BitVec 2
  | .none => 0
  | .ioFailure => 1
  | .resourceExhausted => 2
  | .handshakeFailure => 3

/-- What the host reads on port `REPORT` (R44): `STATE`, `STATUS`, `ERR`, `CLOSE_SENT`, `STREAM_CLOSED`. -/
def report (s : State) : BitVec 2 × BitVec 16 × BitVec 2 × Bool × Bool :=
  (s.conn.code, s.status, s.err.code, s.closeSent, s.streamClosed)

/-- The bytes the peer receives: the completed writes, then what reached it of a failed one (R52). -/
def peerBytes (s : State) : List Byte := s.txLog.flatten ++ s.txPartial

/-- The state of the connection that each phase lies in (R22). -/
def Phase.conn : Phase → ConnState
  | .hsStart | .hsSend => .handshaking
  | .rxHdr | .rxExt | .rxKey | .rxPay | .check | .reply => .opened
  | .clSend | .clClose => .closing
  | .done => .closed

/-! ## The error entry (R262) -/

/-- The class of an exception that `ERR` records (R261, R262). -/
def Exn.errCode : Exn → ErrCode
  | .ioFailure _ => .ioFailure
  | .resourceExhausted _ => .resourceExhausted
  | .handshakeFailure => .handshakeFailure

/-- The error entry up to its CLOSE request, taken on every exception in every phase (R262): it ends the step that
raises, and the close is a transaction of its own (R8; log 9). Nothing is saved and there is no return (R269). -/
def errorEntry (e : Exn) (s : State) : State := { s with err := e.errCode, txBuf := [] }

/-- The error entry from its CLOSE request on (R262): `if STREAM_CLOSED == 0: StreamClose() ; STREAM_CLOSED <- 1`, then
`STATE <- CLOSED ; PHASE <- DONE`. A stream that does not answer CLOSE holds the block here (log 10). -/
def finishErrorEntry (s : State) : State :=
  if s.streamClosed then { s with conn := .closed, phase := .done }
  else if s.closeAnswers then { s with streamClosed := true, conn := .closed, phase := .done }
  else s

/-! ## The port primitives -/

/-- The next answer of a stream and the answers after it; none where the stream answers no more (log 4). -/
def Answers.pop {α : Type} (a : Answers α) : Option (α × Answers α) :=
  match a.listed, a.again with
  | x :: xs, _ => some (x, { a with listed := xs })
  | [], x :: xs => some (x, { a with listed := xs })
  | [], [] => none

/-- The answers after the next one. -/
def Answers.rest {α : Type} (a : Answers α) : Answers α :=
  match a.pop with
  | some (_, r) => r
  | none => a

/-- Byte `i` of the sequence the peer will send, counted from 0; none beyond its end (R51). -/
def rxByte (s : State) (i : Nat) : Option Byte :=
  if i < s.rxBytes.length then s.rxBytes[i]?
  else
    match s.rxTail with
    | .none => none
    | .cycle b bs => (b :: bs)[(i - s.rxBytes.length) % (bs.length + 1)]?
    | .free k => some (Config.peerByte k (i - s.rxBytes.length))

/-- The bytes of the peer's sequence from place `i` on, at most `m` of them. -/
def rxBytesFrom (s : State) : Nat → Nat → List Byte
  | 0, _ => []
  | m + 1, i =>
    match rxByte s i with
    | none => []
    | some b => b :: rxBytesFrom s m (i + 1)

/-- The next bytes of the RX stream, not yet consumed, at most `m` of them (R51). -/
def rxNext (m : Nat) (s : State) : List Byte := rxBytesFrom s m s.rxPos

/-- What the RX stream answers to a request (R41), or that it has not answered. -/
inductive RxAnswer
  | data (c : List Byte)
  | eof
  | error
  | silent
  deriving DecidableEq, Repr

/-- The stream's answer to a request for at most `max` bytes: the next cut of the bytes not yet consumed, or the end
answer once they are exhausted; none while no answer is due (R41, R51, R54; log 4, log 5). -/
def rxAnswer (max : Nat) (s : State) : RxAnswer :=
  match s.rxCuts.pop with
  | none => .silent
  | some (cut, _) =>
    if cut = 0 then .data []
    else
      match rxNext (min cut max) s with
      | [] =>
        match s.rxEnd with
        | .never => .silent
        | .eof => .eof
        | .error => .error
      | b :: bs => .data (b :: bs)

/-- The start of `StreamRead(n)`: `RX_NEED <- n ; RX_ACC <- []`, unless the read is already under way (`RX_NEED`
not 0; DEDUCED, log 8). -/
def beginRead (n : BitVec 64) (s : State) : State :=
  if s.rxNeed = 0 then { s with rxNeed := n, rxAcc := [] } else s

/-- The effect of a `Data(c)` answer: `RX_ACC <- RX_ACC || c ; RX_NEED <- RX_NEED - len(c) ; RX_POS <- RX_POS + len(c)`
(R53), the answer used up. -/
def takeData (c : List Byte) (s : State) : State :=
  { s with
    rxAcc := s.rxAcc ++ c
    rxNeed := s.rxNeed - BitVec.ofNat 64 c.length
    rxPos := s.rxPos + c.length
    rxCuts := s.rxCuts.rest }

/-- One RX transaction of `StreamRead(n)`, `n ≥ 1` (R53): when it brings the last byte owed, `cont` goes on with the
bytes read; `Eof` and `Error` raise `IoFailure`; an unanswered request waits. -/
def streamRead (n : BitVec 64) (cont : List Byte → State → State) (s : State) : State :=
  let s := beginRead n s
  match rxAnswer s.rxNeed.toNat s with
  | .data c =>
    let s := takeData c s
    if s.rxNeed = 0 then cont s.rxAcc s else s
  | .eof => errorEntry (.ioFailure .shortRead) { s with rxCuts := s.rxCuts.rest }
  | .error => errorEntry (.ioFailure .streamError) { s with rxCuts := s.rxCuts.rest }
  | .silent => s

/-- `StreamWrite(TX_BUF) ; TX_BUF <- []` and what follows it (R55): `Done` appends the string to `tx_log` and goes on
with `cont`; `Error` raises `IoFailure(WriteError)`; an unanswered request waits. -/
def streamWrite (cont : State → State) (s : State) : State :=
  match s.txAnswers.pop with
  | none => s
  | some (.done, r) => cont { s with txAnswers := r, txLog := s.txLog ++ [s.txBuf], txBuf := [] }
  | some (.error reached, r) =>
    errorEntry (.ioFailure .writeError) { s with txAnswers := r, txPartial := s.txBuf.take reached }

/-! ## The frame in flight -/

/-- The frame value the frame register set holds (R34). -/
def frameInFlight (s : State) : Frame :=
  { fin := s.fFin, rsv := s.fRsv, opcode := s.fOpcode, masked := s.fMask, length := s.fLen, payload := s.fPayload }

/-- The instruction the frame register set holds: the frame in flight with its decode-time fields (R31, R35). -/
def fetchInstr (s : State) : Instr :=
  Instr.ofOpcode s.fOpcode
    { fin := s.fFin, rsv := s.fRsv, masked := s.fMask, form := LenForm.ofLen7 s.fLen7, len := s.fLen
      key := if keyed s.params s.fMask then some s.fKey else none, payload := s.fPayload }

/-- The frame register set as the decoder leaves it for an instruction (R101 to R109); `F_KEY` keeps its value when no
key is read (R105). -/
def loadFrame (i : Instr) (s : State) : State :=
  { s with
    fFin := i.ops.fin
    fRsv := i.ops.rsv
    fOpcode := i.opcode
    fMask := i.ops.masked
    fLen7 := i.ops.form.len7 i.ops.len
    fLen := i.ops.len
    fKey := i.ops.key.getD s.fKey
    fPayload := i.ops.payload }

/-- A state whose next step runs the instruction of an opcode-table word: its frame is in the frame register set and
the connection is open in phase CHECK (log 12). A word that decodes to nothing changes nothing. -/
def placeWord (nbits w : Nat) (s : State) : State :=
  if nbits = 16 then
    match decode s.params (tableBytes w) with
    | .complete i _ => { loadFrame i s with conn := .opened, phase := .check, err := .none }
    | _ => s
  else s

end Sys2Proof.Machine
end

