-- ==== Sys2Proof/Machine/Check.lean ====
section
/-! DEFINITION. Phase CHECK, which every instruction's meaning is made of: the verdict, the violation latch
(43_connection_driver.md R195, R196) and the ends that the dispatch rules share (R198 to R204). -/

namespace Sys2Proof.Machine

/-- The violation latch: `STATUS <- code; STATE <- CLOSING; PHASE <- CL_SEND` (R196). -/
def latchViolation (code : BitVec 16) (s : State) : State :=
  { s with status := code, conn := .closing, phase := .clSend }

/-- `TX_BUF <- encode(f); PHASE <- REPLY` (R198, R200 to R202). -/
def sendReply (f : Frame) (s : State) : State := { s with txBuf := encodeFrame f, phase := .reply }

/-- `PHASE <- RX_HDR`, nothing written (R203, R204). -/
def dropFrame (s : State) : State := { s with phase := .rxHdr }

/-- `VERDICT <- validate(f)`, then the violation latch, or the frame's dispatch when the verdict is `Ok` (R195 to R197). -/
def checkFrame (f : Frame) (dispatch : State → State) (s : State) : Host.Outcome State Fault Refusal :=
  match validate f with
  | .ok => .next (dispatch { s with verdict := .ok })
  | .err k code => .next (latchViolation code { s with verdict := .err k code })

end Sys2Proof.Machine
end

