-- ==== Sys2Proof/Machine/Control.lean ====
section
/-! DEFINITION. The control frames (43_connection_driver.md R198, R199, R203). -/

namespace Sys2Proof.Machine

/-- The dispatch of a close: `if F_LEN >= 2: STATUS <- close_code(F_PAYLOAD)`, then `STATE <- CLOSING; PHASE <- CL_SEND`
(R199). -/
def peerClose (f : FrameOps) (s : State) : State :=
  let s := if 2 ≤ f.len.toNat then { s with status := (closeCode f.payload).getD s.status } else s
  { s with conn := .closing, phase := .clSend }

/-- CLOSE (R199). -/
def execClose (f : FrameOps) (s : State) : Host.Outcome State Fault Refusal :=
  checkFrame (f.frame 8) (peerClose f) s

/-- PING: `F_OPCODE <- 10`, and the pong with the same FIN and payload (R198). -/
def execPing (f : FrameOps) (s : State) : Host.Outcome State Fault Refusal :=
  checkFrame (f.frame 9) (fun s => sendReply (f.frame 10) { s with fOpcode := 10 }) s

/-- PONG: dropped (R203). -/
def execPong (f : FrameOps) (s : State) : Host.Outcome State Fault Refusal :=
  checkFrame (f.frame 10) dropFrame s

end Sys2Proof.Machine
end

