-- ==== Sys2Proof/Machine/Data.lean ====
section
/-! DEFINITION. The data frames: echoed with the same FIN, opcode and unmasked payload (43_connection_driver.md R200 to
R202, conflict C10). -/

namespace Sys2Proof.Machine

/-- CONT (R200). -/
def execCont (f : FrameOps) (s : State) : Host.Outcome State Fault Refusal :=
  checkFrame (f.frame 0) (sendReply (f.frame 0)) s

/-- TEXT (R201). -/
def execText (f : FrameOps) (s : State) : Host.Outcome State Fault Refusal :=
  checkFrame (f.frame 1) (sendReply (f.frame 1)) s

/-- BINARY (R202). -/
def execBinary (f : FrameOps) (s : State) : Host.Outcome State Fault Refusal :=
  checkFrame (f.frame 2) (sendReply (f.frame 2)) s

end Sys2Proof.Machine
end

