-- ==== Sys2Proof/Machine/Reserved.lean ====
section
/-! DEFINITION. The reserved opcodes 3 to 7 and 11 to 15: the validator rejects every one (42_frame_validate.md R154),
so the drop of their dispatch (43_connection_driver.md R204) is kept and never reached. -/

namespace Sys2Proof.Machine

/-- RSV3 (R204). -/
def execRsv3 (f : FrameOps) (s : State) : Host.Outcome State Fault Refusal :=
  checkFrame (f.frame 3) dropFrame s

/-- RSV4 (R204). -/
def execRsv4 (f : FrameOps) (s : State) : Host.Outcome State Fault Refusal :=
  checkFrame (f.frame 4) dropFrame s

/-- RSV5 (R204). -/
def execRsv5 (f : FrameOps) (s : State) : Host.Outcome State Fault Refusal :=
  checkFrame (f.frame 5) dropFrame s

/-- RSV6 (R204). -/
def execRsv6 (f : FrameOps) (s : State) : Host.Outcome State Fault Refusal :=
  checkFrame (f.frame 6) dropFrame s

/-- RSV7 (R204). -/
def execRsv7 (f : FrameOps) (s : State) : Host.Outcome State Fault Refusal :=
  checkFrame (f.frame 7) dropFrame s

/-- RSV11 (R204). -/
def execRsv11 (f : FrameOps) (s : State) : Host.Outcome State Fault Refusal :=
  checkFrame (f.frame 11) dropFrame s

/-- RSV12 (R204). -/
def execRsv12 (f : FrameOps) (s : State) : Host.Outcome State Fault Refusal :=
  checkFrame (f.frame 12) dropFrame s

/-- RSV13 (R204). -/
def execRsv13 (f : FrameOps) (s : State) : Host.Outcome State Fault Refusal :=
  checkFrame (f.frame 13) dropFrame s

/-- RSV14 (R204). -/
def execRsv14 (f : FrameOps) (s : State) : Host.Outcome State Fault Refusal :=
  checkFrame (f.frame 14) dropFrame s

/-- RSV15 (R204). -/
def execRsv15 (f : FrameOps) (s : State) : Host.Outcome State Fault Refusal :=
  checkFrame (f.frame 15) dropFrame s

end Sys2Proof.Machine
end

