-- ==== Sys2Proof/Machine/Dispatch.lean ====
section
/-! DEFINITION. The dispatch: one arm per instruction (43_connection_driver.md R197, 30_encoding.md R78). -/

namespace Sys2Proof.Machine

/-- The meaning of an instruction in phase CHECK (R195, R197). -/
def exec (i : Instr) (s : State) : Host.Outcome State Fault Refusal :=
  match i with
  | .cont f => Sys2Proof.Machine.execCont f s
  | .text f => Sys2Proof.Machine.execText f s
  | .binary f => Sys2Proof.Machine.execBinary f s
  | .rsv3 f => Sys2Proof.Machine.execRsv3 f s
  | .rsv4 f => Sys2Proof.Machine.execRsv4 f s
  | .rsv5 f => Sys2Proof.Machine.execRsv5 f s
  | .rsv6 f => Sys2Proof.Machine.execRsv6 f s
  | .rsv7 f => Sys2Proof.Machine.execRsv7 f s
  | .close f => Sys2Proof.Machine.execClose f s
  | .ping f => Sys2Proof.Machine.execPing f s
  | .pong f => Sys2Proof.Machine.execPong f s
  | .rsv11 f => Sys2Proof.Machine.execRsv11 f s
  | .rsv12 f => Sys2Proof.Machine.execRsv12 f s
  | .rsv13 f => Sys2Proof.Machine.execRsv13 f s
  | .rsv14 f => Sys2Proof.Machine.execRsv14 f s
  | .rsv15 f => Sys2Proof.Machine.execRsv15 f s

end Sys2Proof.Machine
end

