-- ==== Sys2Proof/Machine/Handshake.lean ====
section
/-! DEFINITION. The handshake codec (44_handshake.md R230 to R236). SHA-1 and base64 are the spec's own, from general
knowledge (PRESUMED, items G2 and G3, log 15). -/

namespace Sys2Proof.Machine

/-! ## SHA-1 (R232, R233) -/

/-- The five words of the hash. -/
structure ShaState where
  h0 : BitVec 32
  h1 : BitVec 32
  h2 : BitVec 32
  h3 : BitVec 32
  h4 : BitVec 32
  deriving DecidableEq, Repr

/-- The initial value (R232). -/
def ShaState.init : ShaState := ⟨0x67452301, 0xEFCDAB89, 0x98BADCFE, 0x10325476, 0xC3D2E1F0⟩

/-- `ROTL_n(x)` (R233). -/
def rotl (n : Nat) (x : BitVec 32) : BitVec 32 := (x <<< n) ||| (x >>> (32 - n))

/-- The padded message: one 1 bit, the fewest zero bytes that fill a block, the length in bits (R232). -/
def shaPad (m : List Byte) : List Byte :=
  m ++ [0x80] ++ List.replicate ((119 - m.length % 64) % 64) 0 ++ be64bytes (BitVec.ofNat 64 (8 * m.length))

/-- The big-endian words of a block (R233). -/
def be32words : List Byte → List (BitVec 32)
  | x :: y :: z :: w :: r => (x ++ y ++ z ++ w) :: be32words r
  | _ => []

/-- `n` more words of the message schedule, the newest first (R233). -/
def shaExtend : Nat → List (BitVec 32) → List (BitVec 32)
  | 0, ws => ws
  | n + 1, ws => shaExtend n (rotl 1 (ws.getD 2 0 ^^^ ws.getD 7 0 ^^^ ws.getD 13 0 ^^^ ws.getD 15 0) :: ws)

/-- The eighty words `W[0..79]` of a block (R233). -/
def shaSchedule (block : List Byte) : List (BitVec 32) := (shaExtend 64 (be32words block).reverse).reverse

/-- The round function `f` (R233). -/
def shaF (t : Nat) (b c d : BitVec 32) : BitVec 32 :=
  if t ≤ 19 then (b &&& c) ||| (~~~b &&& d)
  else if t ≤ 39 then b ^^^ c ^^^ d
  else if t ≤ 59 then (b &&& c) ||| (b &&& d) ||| (c &&& d)
  else b ^^^ c ^^^ d

/-- The round constant `K` (R233). -/
def shaK (t : Nat) : BitVec 32 :=
  if t ≤ 19 then 0x5A827999 else if t ≤ 39 then 0x6ED9EBA1 else if t ≤ 59 then 0x8F1BBCDC else 0xCA62C1D6

/-- The rounds from round `t` on, one per word (R233). -/
def shaRounds : Nat → List (BitVec 32) → ShaState → ShaState
  | _, [], s => s
  | t, w :: ws, s =>
    shaRounds (t + 1) ws
      ⟨rotl 5 s.h0 + shaF t s.h1 s.h2 s.h3 + s.h4 + shaK t + w, s.h0, rotl 30 s.h1, s.h2, s.h3⟩

/-- The step of one block (R233). -/
def shaBlock (block : List Byte) (h : ShaState) : ShaState :=
  let r := shaRounds 0 (shaSchedule block) h
  ⟨h.h0 + r.h0, h.h1 + r.h1, h.h2 + r.h2, h.h3 + r.h3, h.h4 + r.h4⟩

/-- The first `n` 64-byte blocks of a padded message, in order (R232). -/
def shaBlocks : Nat → List Byte → ShaState → ShaState
  | 0, _, h => h
  | n + 1, m, h => shaBlocks n (m.drop 64) (shaBlock (m.take 64) h)

/-- `be32bytes(v)` (R232). -/
def be32bytes (v : BitVec 32) : List Byte :=
  [v.extractLsb' 24 8, v.extractLsb' 16 8, v.extractLsb' 8 8, v.extractLsb' 0 8]

/-- `sha1(m)`, twenty bytes (R232). -/
def sha1 (m : List Byte) : List Byte :=
  let h := shaBlocks ((shaPad m).length / 64) (shaPad m) ShaState.init
  be32bytes h.h0 ++ be32bytes h.h1 ++ be32bytes h.h2 ++ be32bytes h.h3 ++ be32bytes h.h4

/-! ## base64 (R234) -/

/-- The alphabet (R234). -/
def base64Char (i : BitVec 6) : Byte :=
  if i.toNat ≤ 25 then BitVec.ofNat 8 (0x41 + i.toNat)
  else if i.toNat ≤ 51 then BitVec.ofNat 8 (0x61 + (i.toNat - 26))
  else if i.toNat ≤ 61 then BitVec.ofNat 8 (0x30 + (i.toNat - 52))
  else if i.toNat = 62 then 0x2b
  else 0x2f

/-- The four characters of a group of three bytes (R234). -/
def base64Group (x y z : Byte) : List Byte :=
  let v : BitVec 24 := x ++ y ++ z
  [base64Char (v.extractLsb' 18 6), base64Char (v.extractLsb' 12 6)] ++
  [base64Char (v.extractLsb' 6 6), base64Char (v.extractLsb' 0 6)]

/-- `base64(s)` with `=` padding (R234). -/
def base64 : List Byte → List Byte
  | x :: y :: z :: r => base64Group x y z ++ base64 r
  | [x, y] => (base64Group x y 0).take 3 ++ [0x3d]
  | [x] => (base64Group x 0 0).take 2 ++ [0x3d, 0x3d]
  | [] => []

/-! ## The handshake functions -/

/-- `accept_hash(key)` (R230). -/
def acceptHash (p : Params) (key : List Byte) : List Byte := base64 (sha1 (key ++ p.wsGuid))

/-- A carriage return and a line feed (R235). -/
def crlf : List Byte := [0x0D, 0x0A]

/-- `Upgrade: websocket` (R235). -/
def upgradeHeader : List Byte :=
  [0x55, 0x70, 0x67, 0x72, 0x61, 0x64, 0x65, 0x3a, 0x20, 0x77, 0x65, 0x62, 0x73, 0x6f, 0x63, 0x6b, 0x65, 0x74]

/-- `Connection: Upgrade` (R235). -/
def connectionHeader : List Byte :=
  [0x43, 0x6f, 0x6e, 0x6e, 0x65, 0x63, 0x74, 0x69, 0x6f, 0x6e, 0x3a, 0x20] ++
  [0x55, 0x70, 0x67, 0x72, 0x61, 0x64, 0x65]

/-- `render_upgrade_response(a)` (R235). -/
def renderUpgradeResponse (p : Params) (a : List Byte) : List Byte :=
  p.upgradeStatusLine ++ crlf ++ upgradeHeader ++ crlf ++ connectionHeader ++ crlf ++
    p.acceptHeaderName ++ [0x3a, 0x20] ++ a ++ crlf ++ crlf

/-- `key_valid(present, key)` (R236). -/
def keyValid (present : Bool) (key : List Byte) : Bool := present && decide (1 ≤ key.length)

end Sys2Proof.Machine
end

