-- ==== Sys2Proof/Machine/Driver.lean ====
section
/-! DEFINITION. The phases of the connection state machine (43_connection_driver.md R191 to R209, with the decoder's
phases 40_frame_decode.md R101 to R111). Each takes one port transaction or one internal phase change (00_scope.md R8;
log 9). -/

namespace Sys2Proof.Machine

/-! ## Handshaking -/

/-- HS_START: the key is checked and the upgrade response made, or the handshake fails (R191, R264). -/
def stepHsStart (s : State) : State :=
  if keyValid s.keyPresent s.keyIn then
    { s with txBuf := renderUpgradeResponse s.params (acceptHash s.params s.keyIn), phase := .hsSend }
  else errorEntry .handshakeFailure s

/-- HS_SEND: the response is written and the connection opens (R192). -/
def stepHsSend (s : State) : State :=
  streamWrite (fun s => { s with conn := .opened, phase := .rxHdr }) s

/-! ## Open: the decoder -/

/-- The base header's fields (R101). The read brings exactly two bytes (R53); no other string reaches here. -/
def takeHeader (h : List Byte) (s : State) : State :=
  match h with
  | [h0, h1] =>
    { s with
      fFin := finBit h0
      fRsv := rsvBits h0
      fOpcode := opcodeBits h0
      fMask := maskBit h1
      fLen7 := len7Bits h1
      phase := .rxExt }
  | _ => s

/-- RX_HDR (R101). -/
def stepRxHdr (s : State) : State := streamRead 2 takeHeader s

/-- The 16-bit extended length (R103). The read brings exactly two bytes (R53). -/
def takeExt16 (e : List Byte) (s : State) : State :=
  match e with
  | [e0, e1] => { s with fLen := (be16 e0 e1).setWidth 64, phase := .rxKey }
  | _ => s

/-- The 64-bit extended length (R104). -/
def takeExt64 (e : List Byte) (s : State) : State := { s with fLen := be64 e, phase := .rxKey }

/-- RX_EXT: the length form (R102, R103, R104). -/
def stepRxExt (s : State) : State :=
  match LenForm.ofLen7 s.fLen7 with
  | .short => { s with fLen := s.fLen7.setWidth 64, phase := .rxKey }
  | .ext16 => streamRead 2 takeExt16 s
  | .ext64 => streamRead 8 takeExt64 s

/-- The masking key (R105). The read brings exactly four bytes (R53). -/
def takeKey (k : List Byte) (s : State) : State :=
  match k with
  | [k0, k1, k2, k3] => { s with fKey := ⟨k0, k1, k2, k3⟩, phase := .rxPay }
  | _ => s

/-- RX_KEY (R105). -/
def stepRxKey (s : State) : State :=
  if keyed s.params s.fMask then streamRead 4 takeKey s else { s with phase := .rxPay }

/-- The payload, unmasked when a key was read, and the end of the decode (R109, R111). -/
def takePayload (raw : List Byte) (s : State) : State :=
  { s with fPayload := if keyed s.params s.fMask then applyMask raw s.fKey else raw, phase := .check }

/-- RX_PAY: the size check before any payload byte, then the payload; none is read for length 0 (R106, R107). -/
def stepRxPay (s : State) : State :=
  if s.params.maxPayload.toNat < s.fLen.toNat then errorEntry (.resourceExhausted s.fLen) s
  else if s.fLen = 0 then takePayload [] s
  else streamRead s.fLen takePayload s

/-! ## Open: the reply -/

/-- REPLY: the reply is written whole before the next read (R205, R194). -/
def stepReply (s : State) : State := streamWrite (fun s => { s with phase := .rxHdr }) s

/-! ## Closing -/

/-- CL_SEND: one close frame with the latched code (R206). -/
def stepClSend (s : State) : State :=
  streamWrite (fun s => { s with closeSent := true, phase := .clClose })
    { s with txBuf := encodeFrame (closeFrame s.status) }

/-- CL_CLOSE: the stream is closed (R207, R57); it waits for the answer (log 10). -/
def stepClClose (s : State) : State :=
  if s.closeAnswers then { s with streamClosed := true, conn := .closed, phase := .done } else s

/-! ## The machine -/

/-- One step: the phase's transaction or phase change. An error entry under way (`ERR` set and not yet DONE) goes on
first, with its CLOSE transaction (R262; log 9). In DONE nothing runs (R208). -/
def runStep (s : State) : Host.Outcome State Fault Refusal :=
  if s.phase.conn ≠ s.conn then .fault .phaseOutsideState
  else if s.err ≠ .none ∧ s.phase ≠ .done then .next (finishErrorEntry s)
  else
    match s.phase with
    | .hsStart => .next (stepHsStart s)
    | .hsSend => .next (stepHsSend s)
    | .rxHdr => .next (stepRxHdr s)
    | .rxExt => .next (stepRxExt s)
    | .rxKey => .next (stepRxKey s)
    | .rxPay => .next (stepRxPay s)
    | .check => exec (fetchInstr s) s
    | .reply => .next (stepReply s)
    | .clSend => .next (stepClSend s)
    | .clClose => .next (stepClClose s)
    | .done => .next s

end Sys2Proof.Machine
end

