-- ==== Sys2Proof/Machine/Step.lean ====
section
/-! DEFINITION. The step of the machine (00_scope.md R8). -/

namespace Sys2Proof.Machine

/-- One transaction on one port, or one internal phase change (R8, R190). -/
def step (s : State) : Host.Outcome State Fault Refusal := runStep s

/-- The state with an opcode-table word's instruction in the frame register set, ready for CHECK (log 12). -/
def State.withFetchWord (s : State) (nbits w : Nat) : State := placeWord nbits w s

end Sys2Proof.Machine
end

