-- ==== Sys2Proof/Safety.lean ====
section
/-! DEFINITION. What holds of every state a run reaches: the invariant of the machine, and the terms the claims use. -/

namespace Sys2Proof.Machine

/-- The phases of the decoder (10_state.md R22). -/
def Phase.isReading : Phase → Bool
  | .rxHdr | .rxExt | .rxKey | .rxPay => true
  | _ => false

/-- The phases that write `TX_BUF` to the stream (R192, R205, R206). -/
def Phase.isWriting : Phase → Bool
  | .hsSend | .reply | .clSend => true
  | _ => false

/-- The number of bytes that the `StreamRead` of a phase asks for; 0 where the phase reads nothing (20_memory.md R61). -/
def readLength (s : State) : Nat :=
  match s.phase with
  | .rxHdr => 2
  | .rxExt => (LenForm.ofLen7 s.fLen7).extBytes
  | .rxKey => if keyed s.params s.fMask then 4 else 0
  | .rxPay => s.fLen.toNat
  | _ => 0

/-- The listed bytes of the RX stream not yet consumed: all that is to come of a finite sequence (20_memory.md R51). -/
def rxRest (s : State) : List Byte := s.rxBytes.drop s.rxPos

/-- At least `n` of the coming RX answers bring a byte while there is one (20_memory.md R54; log 4). -/
def Brings (n : Nat) (a : Answers Nat) : Prop :=
  n ≤ (a.listed.filter (fun cut => decide (0 < cut))).length ∨ ∃ cut ∈ a.again, 0 < cut

/-- The step raises `IoFailure(cause)` in a read: the stream's answer is used up, no byte is consumed, and the error entry
begins (20_memory.md R53, 60_exceptions.md R262). RX_NEED and RX_ACC are left open (log 8). -/
def ReadRaises (cause : IoCause) (s : State) (cuts : Answers Nat) : Prop :=
  ∃ need acc, step s = .next
    (errorEntry (.ioFailure cause) { s with rxCuts := cuts, rxNeed := need, rxAcc := acc })

/-- The state in which the error entry ends: the stream closed, CLOSED and DONE (60_exceptions.md R262). -/
def afterClose (s : State) : State := { s with streamClosed := true, conn := .closed, phase := .done }

/-- The block is about to decode a frame: OPEN, RX_HDR, no error, no read begun (43_connection_driver.md R193). -/
def AtFrameStart (s : State) : Prop :=
  s.conn = .opened ∧ s.phase = .rxHdr ∧ s.err = .none ∧ s.rxNeed = 0

/-- The frame in flight is whole and under judgement: OPEN, CHECK, no error (43_connection_driver.md R195). -/
def AtCheck (s : State) : Prop := s.conn = .opened ∧ s.phase = .check ∧ s.err = .none

/-- A state of a run: `k` steps of the host's machine lead from `s` to `t`. -/
def Reaches (k : Nat) (s t : State) : Prop := Host.Core.run Sys2Proof.core k s = .next t

/-- A well-formed UTF-8 sequence, by the ranges of the table of 42_frame_validate.md R168, written out. -/
def Utf8Sequence (q : List Byte) : Prop :=
  match q.map BitVec.toNat with
  | [a] => a ≤ 0x7F
  | [a, b] => 0xC2 ≤ a ∧ a ≤ 0xDF ∧ 0x80 ≤ b ∧ b ≤ 0xBF
  | [a, b, c] =>
    0x80 ≤ c ∧ c ≤ 0xBF ∧
      (a = 0xE0 ∧ 0xA0 ≤ b ∧ b ≤ 0xBF ∨ 0xE1 ≤ a ∧ a ≤ 0xEC ∧ 0x80 ≤ b ∧ b ≤ 0xBF ∨
        a = 0xED ∧ 0x80 ≤ b ∧ b ≤ 0x9F ∨ 0xEE ≤ a ∧ a ≤ 0xEF ∧ 0x80 ≤ b ∧ b ≤ 0xBF)
  | [a, b, c, d] =>
    0x80 ≤ c ∧ c ≤ 0xBF ∧ 0x80 ≤ d ∧ d ≤ 0xBF ∧
      (a = 0xF0 ∧ 0x90 ≤ b ∧ b ≤ 0xBF ∨ 0xF1 ≤ a ∧ a ≤ 0xF3 ∧ 0x80 ≤ b ∧ b ≤ 0xBF ∨
        a = 0xF4 ∧ 0x80 ≤ b ∧ b ≤ 0x8F)
  | _ => False

/-- What every step keeps. -/
structure Inv (s : State) : Prop where
  /-- `PHASE` lies in `STATE` (R22) -/
  phase_in_state : s.phase.conn = s.conn
  /-- no byte is consumed that the peer did not send (R51) -/
  consumed_in_bounds : s.rxTail = .none → s.rxPos ≤ s.rxBytes.length
  /-- `STATUS` is a legal close code (R23) -/
  status_legal : closeCodeLegal s.status = true
  /-- until a close is decided `STATUS` is 1000 (R23, R24) -/
  status_default : s.conn = .handshaking ∨ s.conn = .opened → s.status = 1000
  /-- a violation's code is the kind's (R171) -/
  verdict_code : ∀ k c, s.verdict = .err k c → c = k.code
  /-- after a violation `STATUS` is its code (R196) -/
  status_of_violation : s.conn = .closing → ∀ k c, s.verdict = .err k c → s.status = c
  /-- a reply is made only of a valid frame (R196, R197) -/
  reply_verdict : s.phase = .reply → s.verdict = .ok
  /-- `STREAM_CLOSED` is 1 exactly in DONE (R26, R207, R262) -/
  stream_closed_iff : s.streamClosed = true ↔ s.phase = .done
  /-- `CLOSE_SENT` is 1 exactly from the close frame on (R26, R206), and then `ERR` is NONE (R25) -/
  close_sent_iff : s.closeSent = true ↔ s.phase = .clClose ∨ s.phase = .done ∧ s.err = .none
  /-- nothing raises in CL_CLOSE (R57) -/
  close_without_error : s.phase = .clClose → s.err = .none
  /-- each exception is raised by its own phases (R261, R263, R264) -/
  error_phase :
    (s.err = .handshakeFailure → s.phase = .hsStart ∨ s.phase = .done) ∧
      (s.err = .resourceExhausted → s.phase = .rxPay ∨ s.phase = .done) ∧
      (s.err = .ioFailure → s.phase.isReading = true ∨ s.phase.isWriting = true ∨ s.phase = .done)
  /-- `TX_BUF` is empty outside the writing phases (R37) -/
  tx_buf_empty : s.phase.isWriting = false → s.txBuf = []
  /-- `TX_BUF` is empty after an exception (R262) -/
  tx_buf_after_error : s.err ≠ .none → s.txBuf = []
  /-- no empty string is written (R55) -/
  tx_buf_written : s.phase = .hsSend ∨ s.phase = .reply → s.err = .none → s.txBuf ≠ []
  /-- a reply is the encoder's result on the frame register set (R198, R200 to R202) -/
  reply_frame : s.phase = .reply → s.err = .none → s.txBuf = encodeFrame (frameInFlight s)
  /-- nothing is written before the upgrade response (R238) -/
  nothing_before_response : s.conn = .handshaking → s.txLog = []
  /-- no frame is read before the upgrade response is written (R238) -/
  response_written : s.conn = .opened ∨ s.conn = .closing → s.txLog ≠ []
  /-- everything written after the upgrade response is a frame of the encoder (R84) -/
  frames_after_response : ∀ w ∈ s.txLog.tail, ∃ f : Frame, w = encodeFrame f
  /-- a read under way has gathered what it no longer needs (R38, R53) -/
  read_progress : s.err = .none → s.rxNeed ≠ 0 → s.rxNeed.toNat + s.rxAcc.length = readLength s
  /-- a payload is read only when it fits the buffer (R106) -/
  payload_read_fits : s.phase = .rxPay → s.err = .none → s.rxNeed ≠ 0 →
    s.fLen.toNat ≤ s.params.maxPayload.toNat
  /-- the decoded length fits its form (R74) -/
  length_form : s.phase = .rxKey ∨ s.phase = .rxPay ∨ s.phase = .check →
    (LenForm.ofLen7 s.fLen7).holds s.fLen = true
  /-- a decoded frame is whole and fits the buffer (R32) -/
  frame_whole : s.phase = .check ∨ s.phase = .reply →
    s.fPayload.length = s.fLen.toNat ∧ s.fLen.toNat ≤ s.params.maxPayload.toNat

end Sys2Proof.Machine
end

