-- ==== Sys2Proof/Certificates/Slice0/Obligations.lean ====
section
/-! DEFINITION. The statements for the provers, from the spec's numbered rules. A docstring that names a decision D<n> or a
log entry says that the statement rests on a choice of the spec or of the model (92_eei_decisions.md, notes/assumptions). -/

open Sys2Proof Sys2Proof.Machine

/-! ## START and reset -/

/-- START leaves every register the spec gives a value at that value, keeps what the host gave, and the entry point is
HS_START (70_reset_and_hazards.md R290; the register decomposition is the spec's decision D21; the frame registers'
values are the model's, log 1, and nothing is said of them). The bytes to come are the peer's sequence, finite or without
an end (20_memory.md R51, the spec's decision D2; its form is the model's, log 6). -/
def Obligations.StartLeavesTheResetState : Prop :=
  ∀ (p : Params) (present : Bool) (key bytes : List Byte) (tail : RxTail) (e : RxEnd) (cuts : Answers Nat)
    (answers : Answers TxAnswer) (ca : Bool),
    let s := State.start p present key bytes tail e cuts answers ca
    s.conn = .handshaking ∧ s.phase = .hsStart ∧ s.status = 1000 ∧ s.err = .none ∧ s.closeSent = false ∧
      s.streamClosed = false ∧ s.txBuf = [] ∧ s.rxNeed = 0 ∧ s.rxAcc = [] ∧ s.rxPos = 0 ∧ s.txLog = [] ∧
      s.keyPresent = present ∧ s.keyIn = key ∧ s.params = p ∧ s.rxEnd = e ∧
      report s = (0, 1000, 0, false, false) ∧
      (∀ m, tail = .none ∨ m ≤ bytes.length → rxNext m s = bytes.take m) ∧
      (tail ≠ .none → ∀ m, (rxNext m s).length = m)

/-- The invariant holds right after START, whatever the host gives, and so at `State.reset` (log 2). -/
def Obligations.ResetSatisfiesTheInvariant : Prop :=
  (∀ (p : Params) (present : Bool) (key bytes : List Byte) (tail : RxTail) (e : RxEnd) (cuts : Answers Nat)
    (answers : Answers TxAnswer) (ca : Bool), Inv (State.start p present key bytes tail e cuts answers ca)) ∧
  Inv State.reset

/-! ## The whole machine -/

/-- Every step keeps the invariant of the machine, from every state that meets it. -/
def Obligations.StepKeepsTheInvariant : Prop :=
  ∀ s t : State, Inv s → step s = .next t → Inv t

/-- Every step of a state whose PHASE lies in its STATE answers a next state; a state whose PHASE lies outside its STATE
stops with the fault of that name (R22; the fault is the model's, log 11). -/
def Obligations.StepAnswersExceptOutsideState : Prop :=
  ∀ s : State,
    (s.phase.conn = s.conn → ∃ t, step s = .next t) ∧
      (s.phase.conn ≠ s.conn → step s = .fault .phaseOutsideState)

/-- STATE changes only by the five transitions, each for its reason (43_connection_driver.md R190). The reasons are told
by ERR, and STREAM_CLOSED is 1 after a failed close-frame write too (60_exceptions.md R262, the spec's decisions D9, D12
and D23, log 17). -/
def Obligations.StateTransitionsAreTheFive : Prop :=
  ∀ s t : State, Inv s → step s = .next t → t.conn ≠ s.conn →
    (s.conn = .handshaking ∧ t.conn = .opened ∧ t.txLog = s.txLog ++ [s.txBuf]) ∨
      (s.conn = .handshaking ∧ t.conn = .closed ∧ (t.err = .handshakeFailure ∨ t.err = .ioFailure)) ∨
      (s.conn = .opened ∧ t.conn = .closing ∧ s.phase = .check ∧
        ((∃ k c, t.verdict = .err k c) ∨ (s.fOpcode = 8 ∧ t.verdict = .ok))) ∨
      (s.conn = .opened ∧ t.conn = .closed ∧ (t.err = .ioFailure ∨ t.err = .resourceExhausted)) ∨
      (s.conn = .closing ∧ t.conn = .closed ∧ t.streamClosed = true ∧
        (t.closeSent = true ∨ t.err = .ioFailure))

/-- CLOSED is terminal: any number of steps changes nothing (43_connection_driver.md R208, the spec's decision D33). -/
def Obligations.ClosedIsTerminal : Prop :=
  ∀ s : State, s.conn = .closed → s.phase = .done → ∀ k, Reaches k s s

/-- The parameters, the key and the streams' contents are never written; ERR, CLOSE_SENT and STREAM_CLOSED are never
cleared, and ERR is written once (10_state.md R25, R26, R27, 70_reset_and_hazards.md R291, the spec's decisions D2, D7, D9
and D23; the form in which the stream's bytes and answers are held is the model's, log 4 and log 6). -/
def Obligations.FixedInputsAndFlagsThatStay : Prop :=
  ∀ s t : State, step s = .next t →
    (t.params = s.params ∧ t.keyIn = s.keyIn ∧ t.keyPresent = s.keyPresent ∧ t.rxBytes = s.rxBytes ∧
      t.rxTail = s.rxTail ∧ t.rxEnd = s.rxEnd ∧ t.rxCuts.again = s.rxCuts.again ∧
      t.txAnswers.again = s.txAnswers.again ∧ t.closeAnswers = s.closeAnswers) ∧
    (s.err ≠ .none → t.err = s.err) ∧ (s.closeSent = true → t.closeSent = true) ∧
      (s.streamClosed = true → t.streamClosed = true)

/-- Bytes are consumed in order and at most once, and a step adds at most one string to `tx_log` and takes none away
(20_memory.md R51, R52, R63, the spec's decisions D2 and D11). -/
def Obligations.StreamsOnlyGoForward : Prop :=
  ∀ s t : State, Inv s → step s = .next t →
    s.rxPos ≤ t.rxPos ∧ (s.rxTail = .none → t.rxPos ≤ s.rxBytes.length) ∧
      (t.txLog = s.txLog ∨ ∃ w, t.txLog = s.txLog ++ [w])

/-- A write completes before the next read. A step that issues a read, uses an answer of the RX stream or consumes a byte
stands in a reading phase, with nothing left to write, and writes nothing. A reading phase is entered from elsewhere only
when the response or the reply in TX_BUF has just answered Done, or past a pong, with nothing to write. A step that
completes a write reads nothing and leaves TX_BUF empty (20_memory.md R66). -/
def Obligations.WriteCompletesBeforeNextRead : Prop :=
  ∀ s t : State, Inv s → step s = .next t →
    (t.rxNeed ≠ s.rxNeed ∨ t.rxCuts ≠ s.rxCuts ∨ t.rxPos ≠ s.rxPos →
      s.phase.isReading = true ∧ s.txBuf = [] ∧ t.txLog = s.txLog ∧ t.txAnswers = s.txAnswers) ∧
    (s.phase.isReading = false → t.phase.isReading = true →
      ((s.phase = .hsSend ∨ s.phase = .reply) ∧ s.txAnswers.pop = some (.done, t.txAnswers) ∧
        t.txLog = s.txLog ++ [s.txBuf] ∧ t.txBuf = []) ∨
      (s.phase = .check ∧ s.fOpcode = 10 ∧ s.txBuf = [] ∧ t.txBuf = [] ∧ t.txLog = s.txLog)) ∧
    (t.txLog ≠ s.txLog →
      s.phase.isWriting = true ∧ t.rxPos = s.rxPos ∧ t.rxNeed = s.rxNeed ∧ t.rxCuts = s.rxCuts ∧ t.txBuf = [])

/-- STATUS is written only in CHECK, and the connection then goes to CLOSING (10_state.md R23, R24, derived by the spec
from its other rules). -/
def Obligations.StatusIsWrittenOnlyInCheck : Prop :=
  ∀ s t : State, step s = .next t → t.status ≠ s.status →
    s.phase = .check ∧ t.conn = .closing ∧ t.phase = .clSend

/-- Each frame register is written in its own decoder phase only, but for F_OPCODE, which the ping dispatch rewrites to
10; VERDICT is written only in CHECK (10_state.md R28, R29, R31). -/
def Obligations.FrameRegistersAreWrittenByTheirPhase : Prop :=
  ∀ s t : State, step s = .next t →
    (t.fFin ≠ s.fFin ∨ t.fRsv ≠ s.fRsv ∨ t.fMask ≠ s.fMask ∨ t.fLen7 ≠ s.fLen7 → s.phase = .rxHdr) ∧
      (t.fLen ≠ s.fLen → s.phase = .rxExt) ∧ (t.fKey ≠ s.fKey → s.phase = .rxKey) ∧
      (t.fPayload ≠ s.fPayload → s.phase = .rxPay) ∧
      (t.fOpcode ≠ s.fOpcode → s.phase = .rxHdr ∨ (s.phase = .check ∧ s.fOpcode = 9 ∧ t.fOpcode = 10)) ∧
      (t.verdict ≠ s.verdict → s.phase = .check)

/-- Every string written after the upgrade response is a frame of the encoder: reserved bits 0, MASK 0, no key, the
payload unmodified (30_encoding.md R84). -/
def Obligations.ServerFramesAreUnmasked : Prop :=
  ∀ s t : State, Inv s → step s = .next t → s.conn ≠ .handshaking → ∀ w, t.txLog = s.txLog ++ [w] →
    ∃ (f : Frame) (b0 b1 : Byte) (rest : List Byte),
      w = encodeFrame f ∧ w = b0 :: b1 :: rest ∧ b0.toNat / 16 % 8 = 0 ∧ b1.toNat < 128 ∧
        (rest = f.payload ∨ (∃ x y, rest = x :: y :: f.payload) ∨
          (∃ e : List Byte, e.length = 8 ∧ rest = e ++ f.payload))

/-! ## Fetching an instruction -/

/-- A step in CHECK runs the instruction that the frame register set holds; after the decoder has loaded a well-formed
instruction, that is this instruction (43_connection_driver.md R195, R197; instructions are frames, log 12). -/
def Obligations.StepRunsTheDecodedInstruction : Prop :=
  (∀ s : State, AtCheck s → step s = exec (fetchInstr s) s) ∧
    ∀ (s : State) (i : Instr), AtCheck s → WellFormed s.params i → step (loadFrame i s) = exec i (loadFrame i s)

/-- With an opcode-table word placed in `State.reset`, the very next step runs the instruction that `decodeTableWord` reads
from the word, for every word. The placing is the model's (log 12), and so are `State.reset` (log 2), its parameters with
the key policy `Conditional` (log 3), and the reading of a table word (log 14). The general case is
`Obligations.StepRunsTheDecodedInstruction`. -/
def Obligations.TableWordRunsAsTheNextStep : Prop :=
  ∀ (w : Nat) (i : Instr), decodeTableWord 16 w = some i →
    step (State.reset.withFetchWord 16 w) = exec i (State.reset.withFetchWord 16 w)

/-- In every state of a run, the instruction CHECK runs is well-formed and its frame is the frame in flight
(10_state.md R32, derived by the spec). -/
def Obligations.CheckedInstructionIsWellFormed : Prop :=
  ∀ s : State, Inv s → s.phase = .check →
    WellFormed s.params (fetchInstr s) ∧ (fetchInstr s).frame = frameInFlight s

/-! ## The decoder and the encoder of instructions -/

/-- One word of each family, cut by hand from the opcode map (30_encoding.md R71, R72, R78). That byte 0 is bits 15 to 8 of
a table word and that zeros follow it is the model's reading (log 14), and the key policy is `Conditional` (log 3). -/
def Obligations.OpcodeWordsDecode : Prop :=
  decodeTableWord 16 0x8183 = some (.text ⟨true, 0, true, .short, 3, some ⟨0, 0, 0, 0⟩, [0, 0, 0]⟩) ∧
    decodeTableWord 16 0x0000 = some (.cont ⟨false, 0, false, .short, 0, none, []⟩) ∧
    decodeTableWord 16 0xA27E = some (.binary ⟨true, 2, false, .ext16, 0, none, []⟩) ∧
    decodeTableWord 16 0x8880 = some (.close ⟨true, 0, true, .short, 0, some ⟨0, 0, 0, 0⟩, []⟩) ∧
    decodeTableWord 16 0x8900 = some (.ping ⟨true, 0, false, .short, 0, none, []⟩) ∧
    decodeTableWord 16 0x0AFF = some (.pong ⟨false, 0, true, .ext64, 0, some ⟨0, 0, 0, 0⟩, []⟩) ∧
    decodeTableWord 16 0xC501 = some (.rsv5 ⟨true, 4, false, .short, 1, none, [0]⟩) ∧
    decodeTableWord 16 0x1F00 = some (.rsv15 ⟨false, 1, false, .short, 0, none, []⟩)

/-- Decoding the bytes of a well-formed instruction gives it back and takes exactly its bytes, whatever follows them:
no field of any frame is dropped (30_encoding.md R70 to R75, R79 to R81, R90; the key policy is the spec's decision D3,
log 3, and both of its values are covered). -/
def Obligations.DecodeOfEncodedInstruction : Prop :=
  ∀ (p : Params) (i : Instr) (rest : List Byte), WellFormed p i →
    decode p (encodeInstr i ++ rest) = .complete i (encodeInstr i).length

/-- Every byte string that decodes is the bytes of the instruction it decodes to, which is well-formed: two frames never
share their bytes (30_encoding.md R70 to R75, R79 to R81, R90; the key policy is the spec's decision D3, log 3, and both of
its values are covered). -/
def Obligations.EncodeOfDecodedBytes : Prop :=
  ∀ (p : Params) (s : List Byte) (i : Instr) (n : Nat), decode p s = .complete i n →
    WellFormed p i ∧ n ≤ s.length ∧ encodeInstr i = s.take n

/-- `decode_bytes` is prefix-stable: more bytes change neither a whole frame nor a length too large
(40_frame_decode.md R113, derived by the spec). -/
def Obligations.DecodeBytesIsPrefixStable : Prop :=
  ∀ (p : Params) (s more : List Byte),
    (∀ f n, decodeBytes p s = .complete f n → decodeBytes p (s ++ more) = .complete f n) ∧
      (∀ len n, decodeBytes p s = .tooLarge len n → decodeBytes p (s ++ more) = .tooLarge len n)

/-- Round trip: under `Conditional` the decoder gives back the opcode, the final bit and the payload of every frame the
encoder writes, with MASK 0; under `Unconditional` it does not (41_frame_encode.md R137, derived by the spec). -/
def Obligations.EncodedFrameDecodesBack : Prop :=
  (∀ (p : Params) (f : Frame), p.maskKeyPolicy = .conditional → f.rsv = 0 → f.payload.length = f.length.toNat →
    f.length.toNat ≤ p.maxPayload.toNat →
    decodeBytes p (encodeFrame f) = .complete { f with masked := false } (encodeFrame f).length) ∧
  (∀ p : Params, p.maskKeyPolicy = .unconditional → 5 ≤ p.maxPayload.toNat →
    decodeBytes p (encodeFrame ⟨true, 0, 1, false, 5, [0x68, 0x65, 0x6c, 0x6c, 0x6f]⟩) = .needMore)

/-- `apply_mask(p, k)` keeps the length and XORs byte `i` with `k[i mod 4]` (40_frame_decode.md R108). -/
def Obligations.MaskXorsEachByteWithItsLane : Prop :=
  ∀ (p : List Byte) (k : Key),
    (applyMask p k).length = p.length ∧
      ∀ i, i < p.length →
        (applyMask p k).getD i 0 = p.getD i 0 ^^^ [k.k0, k.k1, k.k2, k.k3].getD (i % 4) 0

/-- Masking twice with one key gives the payload back (40_frame_decode.md R110, derived by the spec). -/
def Obligations.MaskingTwiceIsIdentity : Prop :=
  ∀ (p : List Byte) (k : Key), applyMask (applyMask p k) k = p

/-- The encoder's bytes, by payload length: FIN and opcode in byte 0 with reserved bits 0, the minimal length form with
MASK 0, no key, the payload unmodified (41_frame_encode.md R131, R132, R133, R134). -/
def Obligations.EncoderWritesTheMinimalUnmaskedForm : Prop :=
  ∀ f : Frame,
    let len := f.payload.length
    let b0 := f.fin.toNat * 128 + f.opcode.toNat
    let payload := f.payload.map BitVec.toNat
    (len ≤ 125 → (encodeFrame f).map BitVec.toNat = [b0, len] ++ payload) ∧
      (126 ≤ len → len ≤ 65535 →
        (encodeFrame f).map BitVec.toNat = [b0, 126, len / 256, len % 256] ++ payload) ∧
      (65536 ≤ len → len < 2 ^ 64 →
        (encodeFrame f).map BitVec.toNat =
          [b0, 127] ++ (List.range 8).map (fun k => len / 256 ^ (7 - k) % 256) ++ payload)

/-! ## The decoder's phases -/

/-- RX_HDR: the two bytes read give F_FIN, F_RSV, F_OPCODE, F_MASK and F_LEN7, whatever they are, and nothing else of the
frame; a stream that ends or errs before both bytes arrived raises IoFailure (40_frame_decode.md R101). RX_ACC is left
open (log 8). -/
def Obligations.BaseHeaderIsCutIntoItsFields : Prop :=
  ∀ (s : State) (cut : Nat) (cuts : Answers Nat), s.rxCuts.pop = some (cut, cuts) →
    (∀ h0 h1, AtFrameStart s → rxNext 2 s = [h0, h1] → 2 ≤ cut →
      ∃ acc, step s = .next { s with
        rxAcc := acc, rxPos := s.rxPos + 2, rxCuts := cuts
        fFin := decide (128 ≤ h0.toNat), fRsv := BitVec.ofNat 3 (h0.toNat / 16)
        fOpcode := BitVec.ofNat 4 h0.toNat, fMask := decide (128 ≤ h1.toNat)
        fLen7 := BitVec.ofNat 7 h1.toNat, phase := .rxExt }) ∧
    (s.conn = .opened → s.phase = .rxHdr → s.err = .none → rxNext 1 s = [] → 1 ≤ cut →
      (s.rxEnd = .eof → ReadRaises .shortRead s cuts) ∧ (s.rxEnd = .error → ReadRaises .streamError s cuts))

/-- RX_EXT, SHORT form: F_LEN takes the 7-bit field, no byte is read and nothing is raised (40_frame_decode.md R102). -/
def Obligations.ShortLengthReadsNoByte : Prop :=
  ∀ s : State, s.conn = .opened → s.phase = .rxExt → s.err = .none → s.fLen7.toNat ≤ 125 →
    step s = .next { s with fLen := BitVec.ofNat 64 s.fLen7.toNat, phase := .rxKey }

/-- RX_EXT, EXT16 form: F_LEN is the big-endian value of the two bytes read, any value, or the read raises
(40_frame_decode.md R103). RX_ACC is left open (log 8). -/
def Obligations.Ext16LengthIsTheTwoBytes : Prop :=
  ∀ (s : State) (cut : Nat) (cuts : Answers Nat), s.conn = .opened → s.phase = .rxExt → s.err = .none →
    s.fLen7 = 126 → s.rxCuts.pop = some (cut, cuts) →
    (∀ e0 e1, s.rxNeed = 0 → rxNext 2 s = [e0, e1] → 2 ≤ cut →
      ∃ acc, step s = .next { s with
        rxAcc := acc, rxPos := s.rxPos + 2, rxCuts := cuts
        fLen := BitVec.ofNat 64 (e0.toNat * 256 + e1.toNat), phase := .rxKey }) ∧
    (rxNext 1 s = [] → 1 ≤ cut →
      (s.rxEnd = .eof → ReadRaises .shortRead s cuts) ∧ (s.rxEnd = .error → ReadRaises .streamError s cuts))

/-- RX_EXT, EXT64 form: F_LEN is the big-endian value of the eight bytes read, all 64 bits, or the read raises
(40_frame_decode.md R104). RX_ACC is left open (log 8). -/
def Obligations.Ext64LengthIsTheEightBytes : Prop :=
  ∀ (s : State) (cut : Nat) (cuts : Answers Nat), s.conn = .opened → s.phase = .rxExt → s.err = .none →
    s.fLen7 = 127 → s.rxCuts.pop = some (cut, cuts) →
    (∀ e0 e1 e2 e3 e4 e5 e6 e7, s.rxNeed = 0 → rxNext 8 s = [e0, e1, e2, e3, e4, e5, e6, e7] → 8 ≤ cut →
      ∃ acc, step s = .next { s with
        rxAcc := acc, rxPos := s.rxPos + 8, rxCuts := cuts
        fLen := BitVec.ofNat 64
          (e0.toNat * 256 ^ 7 + e1.toNat * 256 ^ 6 + e2.toNat * 256 ^ 5 + e3.toNat * 256 ^ 4 +
            e4.toNat * 256 ^ 3 + e5.toNat * 256 ^ 2 + e6.toNat * 256 + e7.toNat)
        phase := .rxKey }) ∧
    (rxNext 1 s = [] → 1 ≤ cut →
      (s.rxEnd = .eof → ReadRaises .shortRead s cuts) ∧ (s.rxEnd = .error → ReadRaises .streamError s cuts))

/-- RX_KEY: with a key on the wire its four bytes go to F_KEY in wire order, or the read raises IoFailure; without one no
byte is read and F_KEY keeps its value (40_frame_decode.md R105, the spec's decisions D3 and D32). RX_ACC is left open
(log 8). -/
def Obligations.KeyIsReadExactlyWhenOnTheWire : Prop :=
  ∀ s : State, s.conn = .opened → s.phase = .rxKey → s.err = .none →
    (s.params.maskKeyPolicy = .conditional → s.fMask = false → step s = .next { s with phase := .rxPay }) ∧
      ∀ (cut : Nat) (cuts : Answers Nat), s.rxCuts.pop = some (cut, cuts) →
        (s.params.maskKeyPolicy = .unconditional ∨ s.fMask = true) →
        (∀ k0 k1 k2 k3, s.rxNeed = 0 → rxNext 4 s = [k0, k1, k2, k3] → 4 ≤ cut →
          ∃ acc, step s = .next { s with
            rxAcc := acc, rxPos := s.rxPos + 4, rxCuts := cuts
            fKey := ⟨k0, k1, k2, k3⟩, phase := .rxPay }) ∧
        (rxNext 1 s = [] → 1 ≤ cut →
          (s.rxEnd = .eof → ReadRaises .shortRead s cuts) ∧ (s.rxEnd = .error → ReadRaises .streamError s cuts))

/-- RX_PAY: a length above MAX_PAYLOAD raises ResourceExhausted before any payload byte is read, and the
error entry then closes the stream (40_frame_decode.md R106, 60_exceptions.md R262, R263, the spec's decisions D4, D9,
D12 and D23; its two steps are log 9). -/
def Obligations.OversizePayloadIsNotRead : Prop :=
  ∀ s : State, s.conn = .opened → s.phase = .rxPay → s.err = .none →
    s.params.maxPayload.toNat < s.fLen.toNat →
    let t := { s with err := .resourceExhausted, txBuf := [] }
    step s = .next t ∧
      (s.streamClosed = false → s.closeAnswers = true → step t = .next (afterClose t))

/-- RX_PAY: for length 0 the payload is empty and no transaction is made; else exactly `declared_length` bytes are read,
unmasked when a key was read, and the decode is complete; a stream that ends or errs before raises IoFailure
(40_frame_decode.md R107, R111; the unmasking is R109, the spec's decision D3). RX_ACC is left open (log 8). -/
def Obligations.PayloadIsReadWhole : Prop :=
  ∀ s : State, s.conn = .opened → s.phase = .rxPay → s.err = .none →
    s.fLen.toNat ≤ s.params.maxPayload.toNat →
    (s.fLen = 0 → step s = .next { s with fPayload := [], phase := .check }) ∧
    ∀ (cut : Nat) (cuts : Answers Nat), s.rxCuts.pop = some (cut, cuts) → 1 ≤ cut → s.fLen ≠ 0 →
      (∀ raw, s.rxNeed = 0 → rxNext s.fLen.toNat s = raw → raw.length = s.fLen.toNat → s.fLen.toNat ≤ cut →
        ∃ acc, step s = .next { s with
          rxAcc := acc, rxPos := s.rxPos + s.fLen.toNat, rxCuts := cuts
          fPayload :=
            if s.params.maskKeyPolicy = .unconditional ∨ s.fMask = true
            then applyMask raw s.fKey
            else raw
          phase := .check }) ∧
      (rxNext 1 s = [] →
        (s.rxEnd = .eof → ReadRaises .shortRead s cuts) ∧ (s.rxEnd = .error → ReadRaises .streamError s cuts))

/-- DECODE follows `decode_bytes`: if the bytes to come decode to an instruction, then under every cut of the stream the
phases RX_HDR to RX_PAY reach CHECK with that instruction in the frame register set, exactly its bytes consumed and
nothing else changed (40_frame_decode.md R112, derived by the spec). -/
def Obligations.DecoderPhasesFollowDecodeBytes : Prop :=
  ∀ (s : State) (i : Instr) (m n : Nat), AtFrameStart s → decode s.params (rxNext m s) = .complete i n →
    Brings n s.rxCuts →
    ∃ (k : Nat) (acc : List Byte) (cuts : Answers Nat),
      Reaches k s { loadFrame i s with
        phase := .check, rxPos := s.rxPos + n, rxNeed := 0, rxAcc := acc, rxCuts := cuts }

/-- A length above MAX_PAYLOAD ends the connection with ERR = RESOURCE_EXHAUSTED, the header consumed, no payload byte
read and no close frame sent, under every cut of the stream (40_frame_decode.md R112; the spec's decision D4). That the
stream is closed, that ERR tells the class and that STATUS stays are 60_exceptions.md R262, the spec's decisions D9, D23
and D31 (log 17). -/
def Obligations.TooLargeLengthEndsTheConnection : Prop :=
  ∀ (s : State) (len : BitVec 64) (m n : Nat), AtFrameStart s → s.streamClosed = false → s.closeAnswers = true →
    decode s.params (rxNext m s) = .tooLarge len n → Brings n s.rxCuts →
    ∃ (k : Nat) (t : State), Reaches k s t ∧ t.conn = .closed ∧ t.phase = .done ∧ t.err = .resourceExhausted ∧
      t.streamClosed = true ∧ t.rxPos = s.rxPos + n ∧ t.fLen = len ∧ t.fPayload = s.fPayload ∧
      t.txLog = s.txLog ∧ t.closeSent = s.closeSent ∧ t.status = s.status ∧ t.verdict = s.verdict

/-- A stream that ends inside a frame ends the connection with ERR = IO_FAILURE, every byte consumed, no verdict and no
close frame; a stream that never answers holds the block in its read for ever (40_frame_decode.md R112, derived by the
spec). That the stream is closed, that ERR is IO_FAILURE and that STATUS stays are 60_exceptions.md R262, the spec's
decisions D9, D23 and D31 (log 17). -/
def Obligations.CutShortFrameFailsOrWaits : Prop :=
  ∀ s : State, AtFrameStart s → s.rxTail = .none → decode s.params (rxRest s) = .needMore →
    (s.streamClosed = false → s.closeAnswers = true → s.rxEnd ≠ .never →
      Brings ((rxRest s).length + 1) s.rxCuts →
      ∃ (k : Nat) (t : State), Reaches k s t ∧ t.conn = .closed ∧ t.phase = .done ∧ t.err = .ioFailure ∧
        t.streamClosed = true ∧ t.rxPos = s.rxPos + (rxRest s).length ∧ t.txLog = s.txLog ∧
        t.closeSent = s.closeSent ∧ t.status = s.status ∧ t.verdict = s.verdict) ∧
    (s.rxEnd = .never →
      ∀ k, ∃ t, Reaches k s t ∧ t.conn = .opened ∧ t.phase.isReading = true ∧ t.err = .none)

/-- The cuts of the stream do not matter: two streams with the same bytes and different cuts lead to states in CHECK that
differ in nothing but the cuts left (40_frame_decode.md R113, derived by the spec). -/
def Obligations.CutsOfTheStreamDoNotMatter : Prop :=
  ∀ (s : State) (cuts₁ cuts₂ : Answers Nat) (i : Instr) (m n : Nat), AtFrameStart s →
    decode s.params (rxNext m s) = .complete i n → Brings n cuts₁ → Brings n cuts₂ →
    ∃ (k₁ k₂ : Nat) (left₁ left₂ : Answers Nat) (t : State),
      Reaches k₁ { s with rxCuts := cuts₁ } { t with rxCuts := left₁ } ∧
      Reaches k₂ { s with rxCuts := cuts₂ } { t with rxCuts := left₂ } ∧
      t.phase = .check ∧ fetchInstr t = i ∧ t.rxPos = s.rxPos + n

/-! ## The validator -/

/-- A frame, its payload as long as its length (10_state.md R34), is valid exactly when it fails none of the checks
(42_frame_validate.md R162, with the conditions of R152 to R161). -/
def Obligations.ValidFrameFailsNoCheck : Prop :=
  ∀ f : Frame, f.payload.length = f.length.toNat → (validate f = .ok ↔
    f.masked = true ∧ (8 ≤ f.opcode.toNat → f.length.toNat ≤ 125 ∧ f.fin = true) ∧
      f.opcode.toNat ∈ [0, 1, 2, 8, 9, 10] ∧ f.rsv = 0 ∧
      (f.opcode = 1 → f.fin = true → utf8Valid f.payload = true) ∧
      (f.opcode = 8 → f.length = 0 ∨ (2 ≤ f.length.toNat ∧
        ∃ c0 c1 reason, f.payload = c0 :: c1 :: reason ∧ closeCodeLegal (be16 c0 c1) = true ∧
          utf8Valid reason = true)))

/-- The code of every violation: 1007 for text and close reasons, 1002 for the other six kinds (42_frame_validate.md
R171). -/
def Obligations.ViolationCodesAre1002Or1007 : Prop :=
  ∀ (f : Frame) (k : ViolationKind) (c : BitVec 16), validate f = .err k c →
    (k = .invalidText ∨ k = .invalidCloseReason → c = 1007) ∧
      (k ≠ .invalidText → k ≠ .invalidCloseReason → c = 1002)

/-- `close_code_legal` (42_frame_validate.md R166). -/
def Obligations.LegalCloseCodes : Prop :=
  ∀ c : BitVec 16, closeCodeLegal c = true ↔
    c.toNat < 5000 ∧
      (3000 ≤ c.toNat ∨ c.toNat ∈ [1000, 1001, 1002, 1003, 1007, 1008, 1009, 1010, 1011])

/-- `utf8_valid` holds exactly of the concatenations of well-formed sequences (42_frame_validate.md R167, R168; the table
is the spec's decision D16, general-knowledge item G4, log 15). -/
def Obligations.Utf8ValidIsConcatenationOfSequences : Prop :=
  ∀ s : List Byte, utf8Valid s = true ↔ ∃ parts : List (List Byte), s = parts.flatten ∧ ∀ q ∈ parts, Utf8Sequence q

/-! ## The instructions -/

/-- CHECK answers for every instruction and state: VERDICT is the validator's, no port request is made, and nothing but
VERDICT, STATUS, STATE, PHASE, TX_BUF and (for a ping) F_OPCODE changes. A violation latches its code, 1002 or 1007, goes
to CL_SEND and leaves TX_BUF and F_OPCODE alone; a valid frame other than a close leaves STATUS and STATE alone
(43_connection_driver.md R196, with R195). -/
def Obligations.CheckWritesOnlyItsRegisters : Prop :=
  ∀ (i : Instr) (s : State), ∃ t, exec i s = .next t ∧
    t = { s with
      verdict := validate i.frame, status := t.status, conn := t.conn, phase := t.phase, txBuf := t.txBuf
      fOpcode := t.fOpcode } ∧
    (∀ k c, validate i.frame = .err k c →
      (c = 1002 ∨ c = 1007) ∧ t.status = c ∧ t.conn = .closing ∧ t.phase = .clSend ∧ t.txBuf = s.txBuf ∧
        t.fOpcode = s.fOpcode) ∧
    ((∀ f, i ≠ .close f) → validate i.frame = .ok → t.status = s.status ∧ t.conn = s.conn) ∧
    ((∀ f, i ≠ .ping f) → t.fOpcode = s.fOpcode)

/-- CONT, BINARY and TEXT: a valid data frame is echoed with the same FIN, opcode and payload, and nothing else changes; a
final text frame only when its payload is valid UTF-8 (43_connection_driver.md R200, R201, R202, the spec's decision
D17). -/
def Obligations.DataFramesAreEchoed : Prop :=
  ∀ (f : FrameOps) (s : State), f.masked = true → f.rsv = 0 →
    exec (.cont f) s = .next { s with verdict := .ok, txBuf := encodeFrame (f.frame 0), phase := .reply } ∧
      exec (.binary f) s = .next { s with verdict := .ok, txBuf := encodeFrame (f.frame 2), phase := .reply } ∧
      ((f.fin = true → utf8Valid f.payload = true) →
        exec (.text f) s = .next { s with verdict := .ok, txBuf := encodeFrame (f.frame 1), phase := .reply })

/-- PING: F_OPCODE becomes 10 and the pong with the same payload is to be written (43_connection_driver.md R198, the
spec's decision D18). -/
def Obligations.PingIsAnsweredWithPong : Prop :=
  ∀ (f : FrameOps) (s : State), f.masked = true → f.fin = true → f.rsv = 0 → f.len.toNat ≤ 125 →
    f.payload.length = f.len.toNat →
    exec (.ping f) s = .next { s with
      verdict := .ok, fOpcode := 10, txBuf := [0x8A, BitVec.ofNat 8 f.payload.length] ++ f.payload, phase := .reply }

/-- PONG: dropped, nothing is written, the next frame's decode follows (43_connection_driver.md R203). -/
def Obligations.PongIsDropped : Prop :=
  ∀ (f : FrameOps) (s : State), f.masked = true → f.fin = true → f.rsv = 0 → f.len.toNat ≤ 125 →
    exec (.pong f) s = .next { s with verdict := .ok, phase := .rxHdr }

/-- CLOSE: an empty close keeps STATUS; a legal code with a valid reason is latched; the connection goes to CLOSING
(43_connection_driver.md R199, the spec's decision D19). -/
def Obligations.CloseLatchesThePeersCode : Prop :=
  ∀ (f : FrameOps) (s : State), f.masked = true → f.fin = true → f.rsv = 0 → f.len.toNat ≤ 125 →
    f.payload.length = f.len.toNat →
    (f.len = 0 → exec (.close f) s = .next { s with verdict := .ok, conn := .closing, phase := .clSend }) ∧
      (∀ c0 c1 reason, f.payload = c0 :: c1 :: reason → closeCodeLegal (be16 c0 c1) = true →
        utf8Valid reason = true →
        exec (.close f) s = .next { s with
          verdict := .ok, status := be16 c0 c1, conn := .closing, phase := .clSend })

/-- Every reserved opcode is rejected with 1002, whatever its length, FIN, payload or MASK; as RESERVED_OPCODE once the
earlier checks pass, which for the data-side opcodes is the masking check alone (42_frame_validate.md R154). -/
def Obligations.ReservedOpcodesAreRejected : Prop :=
  (∀ (f : FrameOps) (s : State), f.masked = true →
    let t := { s with
      verdict := .err .reservedOpcode 1002, status := 1002, conn := .closing, phase := .clSend }
    (exec (.rsv3 f) s = .next t ∧ exec (.rsv4 f) s = .next t ∧ exec (.rsv5 f) s = .next t ∧
      exec (.rsv6 f) s = .next t ∧ exec (.rsv7 f) s = .next t) ∧
    (f.fin = true → f.len.toNat ≤ 125 →
      exec (.rsv11 f) s = .next t ∧ exec (.rsv12 f) s = .next t ∧ exec (.rsv13 f) s = .next t ∧
        exec (.rsv14 f) s = .next t ∧ exec (.rsv15 f) s = .next t)) ∧
  ∀ (i : Instr) (s : State), i.opcode.toNat ∈ [3, 4, 5, 6, 7, 11, 12, 13, 14, 15] →
    ∃ k, exec i s = .next { s with
      verdict := .err k 1002, status := 1002, conn := .closing, phase := .clSend }

/-- The masking check precedes every other: an unmasked frame of any opcode is rejected as UNMASKED with 1002
(42_frame_validate.md R152). -/
def Obligations.UnmaskedFramesAreRejectedFirst : Prop :=
  ∀ (i : Instr) (s : State), i.ops.masked = false →
    exec i s = .next { s with
      verdict := .err .unmasked 1002, status := 1002, conn := .closing, phase := .clSend }

/-- A control frame that is not final or longer than 125 is rejected as CONTROL_SHAPE with 1002, the reserved control
opcodes too (42_frame_validate.md R153, the spec's decision D5). -/
def Obligations.MisshapenControlFramesAreRejected : Prop :=
  ∀ (f : FrameOps) (s : State), f.masked = true → (125 < f.len.toNat ∨ f.fin = false) →
    let t := { s with
      verdict := .err .controlShape 1002, status := 1002, conn := .closing, phase := .clSend }
    exec (.close f) s = .next t ∧ exec (.ping f) s = .next t ∧ exec (.pong f) s = .next t ∧
      exec (.rsv11 f) s = .next t ∧ exec (.rsv12 f) s = .next t ∧ exec (.rsv13 f) s = .next t ∧
      exec (.rsv14 f) s = .next t ∧ exec (.rsv15 f) s = .next t

/-- A frame with any nonzero reserved bit that passes the earlier checks is rejected as RESERVED_BITS with 1002
(42_frame_validate.md R155). -/
def Obligations.NonzeroReservedBitsAreRejected : Prop :=
  ∀ (f : FrameOps) (s : State), f.masked = true → f.rsv ≠ 0 →
    let t := { s with
      verdict := .err .reservedBits 1002, status := 1002, conn := .closing, phase := .clSend }
    exec (.cont f) s = .next t ∧ exec (.text f) s = .next t ∧ exec (.binary f) s = .next t ∧
      (f.fin = true → f.len.toNat ≤ 125 →
        exec (.close f) s = .next t ∧ exec (.ping f) s = .next t ∧ exec (.pong f) s = .next t)

/-- A final text frame whose payload is not UTF-8 is rejected with 1007; a text frame that is not final, a continuation
frame and an empty text frame are valid whatever they carry, and are echoed (42_frame_validate.md R156; the echoed bytes
are 43_connection_driver.md R200 and R201, the spec's decision D17, log 17). -/
def Obligations.InvalidFinalTextIsRejected : Prop :=
  ∀ (f : FrameOps) (s : State), f.masked = true → f.rsv = 0 →
    (f.fin = true → utf8Valid f.payload = false → exec (.text f) s = .next { s with
      verdict := .err .invalidText 1007, status := 1007, conn := .closing, phase := .clSend }) ∧
    (f.fin = false ∨ f.payload = [] → exec (.text f) s = .next { s with
      verdict := .ok, txBuf := encodeFrame (f.frame 1), phase := .reply }) ∧
    exec (.cont f) s = .next { s with verdict := .ok, txBuf := encodeFrame (f.frame 0), phase := .reply }

/-- A close whose payload is one byte is rejected as CLOSE_LENGTH_1 with 1002 (42_frame_validate.md R160). -/
def Obligations.OneByteCloseIsRejected : Prop :=
  ∀ (f : FrameOps) (s : State), f.masked = true → f.fin = true → f.rsv = 0 → f.len = 1 →
    exec (.close f) s = .next { s with
      verdict := .err .closeLength1 1002, status := 1002, conn := .closing, phase := .clSend }

/-- A close whose code is at least 5000, or below 3000 and not in the registry, is rejected as INVALID_CLOSE_CODE with
1002, whatever its reason; a close with any other code is not (42_frame_validate.md R158). That a bad code is reported
before a bad reason is R157 and R159, the spec's decision D6 (log 17). -/
def Obligations.IllegalCloseCodeIsRejected : Prop :=
  ∀ (f : FrameOps) (s : State) (c0 c1 : Byte) (reason : List Byte), f.masked = true → f.fin = true → f.rsv = 0 →
    f.len.toNat ≤ 125 → f.payload.length = f.len.toNat → f.payload = c0 :: c1 :: reason →
    let code := c0.toNat * 256 + c1.toNat
    let illegal := 5000 ≤ code ∨ (code < 3000 ∧ code ∉ [1000, 1001, 1002, 1003, 1007, 1008, 1009, 1010, 1011])
    (illegal → exec (.close f) s = .next { s with
      verdict := .err .invalidCloseCode 1002, status := 1002, conn := .closing, phase := .clSend }) ∧
    (¬illegal → ∃ t, exec (.close f) s = .next t ∧ ∀ c, t.verdict ≠ .err .invalidCloseCode c)

/-- A close with a legal code and a reason that is not UTF-8 is rejected as INVALID_CLOSE_REASON with 1007
(42_frame_validate.md R159, the spec's decision D6). -/
def Obligations.InvalidCloseReasonIsRejected : Prop :=
  ∀ (f : FrameOps) (s : State) (c0 c1 : Byte) (reason : List Byte), f.masked = true → f.fin = true → f.rsv = 0 →
    f.len.toNat ≤ 125 → f.payload.length = f.len.toNat → f.payload = c0 :: c1 :: reason →
    closeCodeLegal (be16 c0 c1) = true → utf8Valid reason = false →
    exec (.close f) s = .next { s with
      verdict := .err .invalidCloseReason 1007, status := 1007, conn := .closing, phase := .clSend }

/-! ## The handshake -/

/-- HS_START: a present, non-empty key gives the upgrade response and HS_SEND; else the handshake fails into CLOSED
without a write (43_connection_driver.md R191, 60_exceptions.md R262, R264, the spec's decisions D7, D9, D12 and D23; the
error entry's two steps are log 9). -/
def Obligations.HandshakeNeedsAKey : Prop :=
  ∀ s : State, s.conn = .handshaking → s.phase = .hsStart → s.err = .none →
    (s.keyPresent = true → s.keyIn ≠ [] →
      step s = .next { s with
        txBuf := renderUpgradeResponse s.params (base64 (sha1 (s.keyIn ++ s.params.wsGuid))), phase := .hsSend }) ∧
    (s.keyPresent = false ∨ s.keyIn = [] →
      let t := { s with err := .handshakeFailure, txBuf := [] }
      step s = .next t ∧
        (s.streamClosed = false → s.closeAnswers = true → step t = .next (afterClose t)))

/-- HS_SEND: the response written, the connection opens at RX_HDR; a failed write aborts to CLOSED without a close frame,
and an unanswered one waits (43_connection_driver.md R192). ERR and STREAM_CLOSED after the failed write are
60_exceptions.md R262, the spec's decisions D9 and D23 (log 17), in two steps (log 9); the prefix the peer got is recorded
by log 7; the wait is 20_memory.md R55, in the model's form (log 4). -/
def Obligations.ConnectionOpensWhenResponseIsWritten : Prop :=
  ∀ s : State, s.conn = .handshaking → s.phase = .hsSend → s.err = .none →
    (∀ r, s.txAnswers.pop = some (.done, r) →
      step s = .next { s with
        txAnswers := r, txLog := s.txLog ++ [s.txBuf], txBuf := [], conn := .opened, phase := .rxHdr }) ∧
    (∀ n r, s.txAnswers.pop = some (.error n, r) →
      let t := { s with txAnswers := r, txPartial := s.txBuf.take n, err := .ioFailure, txBuf := [] }
      step s = .next t ∧
        (s.streamClosed = false → s.closeAnswers = true → step t = .next (afterClose t))) ∧
    (s.txAnswers.pop = none → step s = .next s)

/-- SHA-1's padded message is the message, one byte 0x80, zero bytes and the length in bits, and the shortest such string
that fills whole blocks; base64 gives four characters for every three bytes begun; so the accept hash of every key has 28
characters and the response for it 129 bytes (44_handshake.md R230, R232, R234, R235; SHA-1, base64 and the response text
are the spec's decisions D8 and D25, log 15). -/
def Obligations.HandshakeCodecSizes : Prop :=
  (∀ m : List Byte,
    64 ∣ (shaPad m).length ∧ m.length + 9 ≤ (shaPad m).length ∧ (shaPad m).length < m.length + 9 + 64 ∧
      ∃ z, shaPad m = m ++ 0x80 :: (List.replicate z 0 ++ be64bytes (BitVec.ofNat 64 (8 * m.length)))) ∧
  (∀ s : List Byte, (base64 s).length = (s.length + 2) / 3 * 4) ∧
  ∀ (p : Params) (key : List Byte),
    (acceptHash p key).length = 28 ∧
      (renderUpgradeResponse Params.normative (acceptHash p key)).length = 129

/-! ## Replying and closing -/

/-- REPLY: the reply is written whole, then the next frame may be read; a failed write ends the connection in CLOSED
without a close frame, and an unanswered one waits (43_connection_driver.md R205). ERR and STREAM_CLOSED after the failed
write are 60_exceptions.md R262, the spec's decisions D9 and D23 (log 17), in two steps (log 9); the prefix the peer got is
recorded by log 7; the wait is 20_memory.md R55, in the model's form (log 4). -/
def Obligations.ReplyIsWrittenWhole : Prop :=
  ∀ s : State, s.conn = .opened → s.phase = .reply → s.err = .none →
    (∀ r, s.txAnswers.pop = some (.done, r) →
      step s = .next { s with txAnswers := r, txLog := s.txLog ++ [s.txBuf], txBuf := [], phase := .rxHdr }) ∧
    (∀ n r, s.txAnswers.pop = some (.error n, r) →
      let t := { s with txAnswers := r, txPartial := s.txBuf.take n, err := .ioFailure, txBuf := [] }
      step s = .next t ∧
        (s.streamClosed = false → s.closeAnswers = true → step t = .next (afterClose t))) ∧
    (s.txAnswers.pop = none → step s = .next s)

/-- CL_SEND: the bytes written are `88 02` and the two bytes of STATUS; then CLOSE_SENT is 1; a failed write takes the
error entry and CLOSE_SENT stays, and an unanswered one waits with the bytes in TX_BUF (43_connection_driver.md R206). What
the failed write leaves is 60_exceptions.md R262, the spec's decisions D9, D12 and D23 (log 17), in two steps (log 9); the
prefix the peer got is recorded by log 7; the wait is 20_memory.md R55, in the model's form (log 4). -/
def Obligations.CloseFrameCarriesStatus : Prop :=
  ∀ s : State, s.conn = .closing → s.phase = .clSend → s.err = .none →
    let bytes : List Byte := [0x88, 0x02, BitVec.ofNat 8 (s.status.toNat / 256), BitVec.ofNat 8 s.status.toNat]
    (∀ r, s.txAnswers.pop = some (.done, r) →
      step s = .next { s with
        txAnswers := r, txBuf := [], closeSent := true, phase := .clClose, txLog := s.txLog ++ [bytes] }) ∧
    (∀ n r, s.txAnswers.pop = some (.error n, r) →
      let t := { s with txAnswers := r, txPartial := bytes.take n, err := .ioFailure, txBuf := [] }
      step s = .next t ∧
        (s.streamClosed = false → s.closeAnswers = true → step t = .next (afterClose t))) ∧
    (s.txAnswers.pop = none → step s = .next { s with txBuf := bytes })

/-- CL_CLOSE: the stream is closed, STREAM_CLOSED is 1 and the connection is CLOSED, in DONE (43_connection_driver.md
R207). -/
def Obligations.StreamIsClosedAtTheEnd : Prop :=
  ∀ s : State, s.conn = .closing → s.phase = .clClose → s.err = .none → s.closeAnswers = true →
    step s = .next { s with streamClosed := true, conn := .closed, phase := .done }

/-- The error entry, in any phase: ERR by the class of the exception, TX_BUF empty, then the stream closed, CLOSED and
DONE, and nothing else; with a stream that does not answer CLOSE it waits, and every later step waits too
(60_exceptions.md R262, the spec's decisions D9, D12 and D23; that the CLOSE is a step of its own is log 9, following
00_scope.md R8, and the wait is log 10). -/
def Obligations.ErrorEntryWritesExactly : Prop :=
  ∀ (e : Exn) (s : State),
    let code := match e with
      | .ioFailure _ => ErrCode.ioFailure
      | .resourceExhausted _ => ErrCode.resourceExhausted
      | .handshakeFailure => ErrCode.handshakeFailure
    let t := { s with err := code, txBuf := [] }
    errorEntry e s = t ∧
      (s.phase.conn = s.conn → s.phase ≠ .done →
        (s.streamClosed = true ∨ s.closeAnswers = true → step t = .next (afterClose t)) ∧
        (s.streamClosed = false → s.closeAnswers = false → step t = .next t))

/-! ## A frame's whole life -/

/-- A valid data frame or ping on the stream is answered whole: from the start of the frame, under every cut, the block
reaches the start of the next one with exactly the frame's bytes consumed, exactly one string added to `tx_log`, and
STATUS unchanged (43_connection_driver.md R193 to R205; the reply's form is the spec's decisions D17 and D18). -/
def Obligations.ValidFrameIsAnsweredWhole : Prop :=
  ∀ (s : State) (i : Instr) (m n : Nat) (r : Answers TxAnswer), AtFrameStart s →
    decode s.params (rxNext m s) = .complete i n → Brings n s.rxCuts → s.txAnswers.pop = some (.done, r) →
    validate i.frame = .ok → i.opcode ∈ [0, 1, 2, 9] →
    ∃ (k : Nat) (t : State), Reaches k s t ∧ AtFrameStart t ∧ t.rxPos = s.rxPos + n ∧ t.status = s.status ∧
      t.txAnswers = r ∧
      t.txLog = s.txLog ++ [encodeFrame (i.ops.frame (if i.opcode = 9 then 10 else i.opcode))]

/-- A frame that breaks a rule, and a close, end the connection in order: from the start of the frame, under every cut,
the block reaches CLOSED with exactly the frame's bytes consumed, one close frame written that carries STATUS, the
stream closed and ERR unset; STATUS is the violation's code, or the peer's, or as it was (43_connection_driver.md R196,
R199, R206, R207, 60_exceptions.md R265; the close's reply is the spec's decision D19). -/
def Obligations.ViolationOrCloseEndsInOrder : Prop :=
  ∀ (s : State) (i : Instr) (m n : Nat) (r : Answers TxAnswer), AtFrameStart s →
    decode s.params (rxNext m s) = .complete i n → Brings n s.rxCuts → s.txAnswers.pop = some (.done, r) →
    s.closeAnswers = true → (validate i.frame ≠ .ok ∨ i.opcode = 8) →
    ∃ (k : Nat) (t : State), Reaches k s t ∧ t.conn = .closed ∧ t.phase = .done ∧ t.rxPos = s.rxPos + n ∧
      t.err = .none ∧ t.closeSent = true ∧ t.streamClosed = true ∧
      t.txLog = s.txLog ++
        [[0x88, 0x02, BitVec.ofNat 8 (t.status.toNat / 256), BitVec.ofNat 8 t.status.toNat]] ∧
      (∀ v c, validate i.frame = .err v c → t.status = c) ∧
      (validate i.frame = .ok → i.ops.len = 0 → t.status = s.status) ∧
      (∀ c0 c1 reason, validate i.frame = .ok → i.ops.payload = c0 :: c1 :: reason → t.status = be16 c0 c1)
end

