-- ==== Sys2Proof/Laws/Decode.lean ====
section
/-! SUPPORT. The laws of the byte-level functions: header fields, byte order, the mask applicator, opcodes. -/

namespace Sys2Proof

/-! ## Header bytes (R71, R72) -/

@[simp] theorem finBit_byte0 (fin : Bool) (rsv : BitVec 3) (op : BitVec 4) : finBit (byte0 fin rsv op) = fin := by
  revert fin rsv op; decide

@[simp] theorem rsvBits_byte0 (fin : Bool) (rsv : BitVec 3) (op : BitVec 4) : rsvBits (byte0 fin rsv op) = rsv := by
  revert fin rsv op; decide

@[simp] theorem opcodeBits_byte0 (fin : Bool) (rsv : BitVec 3) (op : BitVec 4) :
    opcodeBits (byte0 fin rsv op) = op := by
  revert fin rsv op; decide

@[simp] theorem maskBit_byte1 (m : Bool) (n : BitVec 7) : maskBit (byte1 m n) = m := by
  revert m n; decide

@[simp] theorem len7Bits_byte1 (m : Bool) (n : BitVec 7) : len7Bits (byte1 m n) = n := by
  revert m n; decide

theorem byte0_fields (b : Byte) : byte0 (finBit b) (rsvBits b) (opcodeBits b) = b := by
  revert b; decide

theorem byte1_fields (b : Byte) : byte1 (maskBit b) (len7Bits b) = b := by
  revert b; decide

/-! ## Byte order (R13) -/

@[simp] theorem be16bytes_length (v : BitVec 16) : (be16bytes v).length = 2 := rfl

@[simp] theorem be64bytes_length (v : BitVec 64) : (be64bytes v).length = 8 := rfl

theorem be16_toNat (x y : Byte) : (be16 x y).toNat = x.toNat * 256 + y.toNat := by
  rw [be16, BitVec.toNat_append, Nat.shiftLeft_eq, Nat.mul_comm, ← Nat.two_pow_add_eq_or_of_lt y.isLt, Nat.mul_comm]

theorem extractLsb'_byte_toNat {w : Nat} (v : BitVec w) (k : Nat) :
    (v.extractLsb' k 8).toNat = v.toNat / 2 ^ k % 256 := by
  simp [BitVec.extractLsb'_toNat, Nat.shiftRight_eq_div_pow]

/-- The two bytes of a 16-bit number give it back. -/
theorem be16_be16bytes (v : BitVec 16) : be16 (v.extractLsb' 8 8) (v.extractLsb' 0 8) = v := by
  apply BitVec.eq_of_toNat_eq
  have := v.isLt
  rw [be16_toNat, extractLsb'_byte_toNat, extractLsb'_byte_toNat]
  omega

theorem beNat_lt (s : List Byte) : beNat s < 256 ^ s.length := by
  suffices h : ∀ (s : List Byte) (a : Nat), s.foldl (fun v b => v * 256 + b.toNat) a < (a + 1) * 256 ^ s.length by
    simpa [beNat] using h s 0
  intro s
  induction s with
  | nil => intro a; simp
  | cons b s ih =>
    intro a
    have hb := b.isLt
    refine lt_of_lt_of_le (ih _) ?_
    rw [List.length_cons, pow_succ', ← mul_assoc, mul_comm (a + 1)]
    exact Nat.mul_le_mul_right _ (by show a * 256 + b.toNat + 1 ≤ 256 * (a + 1); omega)

theorem be64_toNat {s : List Byte} (h : s.length = 8) : (be64 s).toNat = beNat s := by
  have := beNat_lt s
  rw [h] at this
  rw [be64, BitVec.toNat_ofNat, Nat.mod_eq_of_lt (by omega)]

/-- The eight bytes of a 64-bit number give it back. -/
theorem be64_be64bytes (v : BitVec 64) : be64 (be64bytes v) = v := by
  apply BitVec.eq_of_toNat_eq
  have := v.isLt
  rw [be64_toNat (be64bytes_length v)]
  simp only [be64bytes, beNat, List.cons_append, List.nil_append, List.foldl_cons, List.foldl_nil,
    extractLsb'_byte_toNat]
  omega

/-- Eight bytes are the bytes of the number they make. -/
theorem be64bytes_be64 (b0 b1 b2 b3 b4 b5 b6 b7 : Byte) :
    be64bytes (be64 [b0, b1, b2, b3, b4, b5, b6, b7]) = [b0, b1, b2, b3, b4, b5, b6, b7] := by
  have hv := be64_toNat (s := [b0, b1, b2, b3, b4, b5, b6, b7]) rfl
  simp only [beNat, List.foldl_cons, List.foldl_nil] at hv
  have h0 := b0.isLt; have h1 := b1.isLt; have h2 := b2.isLt; have h3 := b3.isLt
  have h4 := b4.isLt; have h5 := b5.isLt; have h6 := b6.isLt; have h7 := b7.isLt
  simp only [be64bytes, List.cons_append, List.nil_append, List.cons.injEq, and_true]
  refine ⟨?_, ?_, ?_, ?_, ?_, ?_, ?_, ?_⟩ <;> apply BitVec.eq_of_toNat_eq <;>
    rw [extractLsb'_byte_toNat, hv] <;> omega

/-- Two bytes are the bytes of the number they make. -/
theorem be16bytes_be16 (x y : Byte) : be16bytes (be16 x y) = [x, y] := by
  have hv := be16_toNat x y
  have hx := x.isLt; have hy := y.isLt
  simp only [be16bytes, List.cons.injEq, and_true]
  refine ⟨?_, ?_⟩ <;> apply BitVec.eq_of_toNat_eq <;> rw [extractLsb'_byte_toNat, hv] <;> omega

/-! ## The mask applicator (R108) -/

@[simp] theorem maskFrom_length (k : Key) (i : Nat) (s : List Byte) : (maskFrom k i s).length = s.length := by
  induction s generalizing i with
  | nil => rfl
  | cons b s ih => simp [maskFrom, ih]

@[simp] theorem applyMask_length (s : List Byte) (k : Key) : (applyMask s k).length = s.length :=
  maskFrom_length k 0 s

@[simp] theorem unmask_length (s : List Byte) (k : Option Key) : (unmask s k).length = s.length := by
  cases k <;> simp [unmask]

/-! ## Length forms (R74) -/

theorem LenForm.ofLen7_len7 {form : LenForm} {n : BitVec 64} (h : form.holds n = true) :
    LenForm.ofLen7 (form.len7 n) = form := by
  cases form with
  | short =>
    have hn : n.toNat ≤ 125 := by simpa [LenForm.holds] using h
    have : (n.setWidth 7).toNat = n.toNat := by rw [BitVec.toNat_setWidth, Nat.mod_eq_of_lt (by omega)]
    simp [LenForm.ofLen7, LenForm.len7, this, hn]
  | ext16 => rfl
  | ext64 => rfl

/-! ## Opcodes (R78) -/

@[simp] theorem Instr.ofOpcode_opcode_ops (i : Instr) : Instr.ofOpcode i.opcode i.ops = i := by
  cases i <;> rfl

@[simp] theorem Instr.ops_ofOpcode (op : BitVec 4) (f : FrameOps) : (Instr.ofOpcode op f).ops = f := by
  simp only [Instr.ofOpcode]
  split <;> rfl

@[simp] theorem Instr.opcode_ofOpcode (op : BitVec 4) (f : FrameOps) : (Instr.ofOpcode op f).opcode = op := by
  obtain ⟨⟨n, h⟩⟩ := op
  have h16 : n < 16 := h
  interval_cases n <;> rfl

end Sys2Proof
end

