-- ==== Sys2Proof/Laws/State.lean ====
section
/-! SUPPORT. What each named update of the state writes and leaves, one lemma per field, so that no proof unfolds an
update. -/

namespace Sys2Proof.Machine

variable (s : State)

/-! ## latchViolation -/

@[simp] theorem latchViolation_params (c : BitVec 16) : (latchViolation c s).params = s.params := rfl
@[simp] theorem latchViolation_conn (c : BitVec 16) : (latchViolation c s).conn = .closing := rfl
@[simp] theorem latchViolation_phase (c : BitVec 16) : (latchViolation c s).phase = .clSend := rfl
@[simp] theorem latchViolation_status (c : BitVec 16) : (latchViolation c s).status = c := rfl
@[simp] theorem latchViolation_err (c : BitVec 16) : (latchViolation c s).err = s.err := rfl
@[simp] theorem latchViolation_closeSent (c : BitVec 16) : (latchViolation c s).closeSent = s.closeSent := rfl
@[simp] theorem latchViolation_streamClosed (c : BitVec 16) : (latchViolation c s).streamClosed = s.streamClosed := rfl
@[simp] theorem latchViolation_keyIn (c : BitVec 16) : (latchViolation c s).keyIn = s.keyIn := rfl
@[simp] theorem latchViolation_keyPresent (c : BitVec 16) : (latchViolation c s).keyPresent = s.keyPresent := rfl
@[simp] theorem latchViolation_fFin (c : BitVec 16) : (latchViolation c s).fFin = s.fFin := rfl
@[simp] theorem latchViolation_fRsv (c : BitVec 16) : (latchViolation c s).fRsv = s.fRsv := rfl
@[simp] theorem latchViolation_fOpcode (c : BitVec 16) : (latchViolation c s).fOpcode = s.fOpcode := rfl
@[simp] theorem latchViolation_fMask (c : BitVec 16) : (latchViolation c s).fMask = s.fMask := rfl
@[simp] theorem latchViolation_fLen7 (c : BitVec 16) : (latchViolation c s).fLen7 = s.fLen7 := rfl
@[simp] theorem latchViolation_fLen (c : BitVec 16) : (latchViolation c s).fLen = s.fLen := rfl
@[simp] theorem latchViolation_fKey (c : BitVec 16) : (latchViolation c s).fKey = s.fKey := rfl
@[simp] theorem latchViolation_fPayload (c : BitVec 16) : (latchViolation c s).fPayload = s.fPayload := rfl
@[simp] theorem latchViolation_verdict (c : BitVec 16) : (latchViolation c s).verdict = s.verdict := rfl
@[simp] theorem latchViolation_txBuf (c : BitVec 16) : (latchViolation c s).txBuf = s.txBuf := rfl
@[simp] theorem latchViolation_rxNeed (c : BitVec 16) : (latchViolation c s).rxNeed = s.rxNeed := rfl
@[simp] theorem latchViolation_rxAcc (c : BitVec 16) : (latchViolation c s).rxAcc = s.rxAcc := rfl
@[simp] theorem latchViolation_rxBytes (c : BitVec 16) : (latchViolation c s).rxBytes = s.rxBytes := rfl
@[simp] theorem latchViolation_rxTail (c : BitVec 16) : (latchViolation c s).rxTail = s.rxTail := rfl
@[simp] theorem latchViolation_rxEnd (c : BitVec 16) : (latchViolation c s).rxEnd = s.rxEnd := rfl
@[simp] theorem latchViolation_rxPos (c : BitVec 16) : (latchViolation c s).rxPos = s.rxPos := rfl
@[simp] theorem latchViolation_txLog (c : BitVec 16) : (latchViolation c s).txLog = s.txLog := rfl
@[simp] theorem latchViolation_rxCuts (c : BitVec 16) : (latchViolation c s).rxCuts = s.rxCuts := rfl
@[simp] theorem latchViolation_txAnswers (c : BitVec 16) : (latchViolation c s).txAnswers = s.txAnswers := rfl
@[simp] theorem latchViolation_closeAnswers (c : BitVec 16) : (latchViolation c s).closeAnswers = s.closeAnswers := rfl
@[simp] theorem latchViolation_txPartial (c : BitVec 16) : (latchViolation c s).txPartial = s.txPartial := rfl

/-! ## sendReply -/

@[simp] theorem sendReply_params (f : Frame) : (sendReply f s).params = s.params := rfl
@[simp] theorem sendReply_conn (f : Frame) : (sendReply f s).conn = s.conn := rfl
@[simp] theorem sendReply_phase (f : Frame) : (sendReply f s).phase = .reply := rfl
@[simp] theorem sendReply_status (f : Frame) : (sendReply f s).status = s.status := rfl
@[simp] theorem sendReply_err (f : Frame) : (sendReply f s).err = s.err := rfl
@[simp] theorem sendReply_closeSent (f : Frame) : (sendReply f s).closeSent = s.closeSent := rfl
@[simp] theorem sendReply_streamClosed (f : Frame) : (sendReply f s).streamClosed = s.streamClosed := rfl
@[simp] theorem sendReply_keyIn (f : Frame) : (sendReply f s).keyIn = s.keyIn := rfl
@[simp] theorem sendReply_keyPresent (f : Frame) : (sendReply f s).keyPresent = s.keyPresent := rfl
@[simp] theorem sendReply_fFin (f : Frame) : (sendReply f s).fFin = s.fFin := rfl
@[simp] theorem sendReply_fRsv (f : Frame) : (sendReply f s).fRsv = s.fRsv := rfl
@[simp] theorem sendReply_fOpcode (f : Frame) : (sendReply f s).fOpcode = s.fOpcode := rfl
@[simp] theorem sendReply_fMask (f : Frame) : (sendReply f s).fMask = s.fMask := rfl
@[simp] theorem sendReply_fLen7 (f : Frame) : (sendReply f s).fLen7 = s.fLen7 := rfl
@[simp] theorem sendReply_fLen (f : Frame) : (sendReply f s).fLen = s.fLen := rfl
@[simp] theorem sendReply_fKey (f : Frame) : (sendReply f s).fKey = s.fKey := rfl
@[simp] theorem sendReply_fPayload (f : Frame) : (sendReply f s).fPayload = s.fPayload := rfl
@[simp] theorem sendReply_verdict (f : Frame) : (sendReply f s).verdict = s.verdict := rfl
@[simp] theorem sendReply_txBuf (f : Frame) : (sendReply f s).txBuf = encodeFrame f := rfl
@[simp] theorem sendReply_rxNeed (f : Frame) : (sendReply f s).rxNeed = s.rxNeed := rfl
@[simp] theorem sendReply_rxAcc (f : Frame) : (sendReply f s).rxAcc = s.rxAcc := rfl
@[simp] theorem sendReply_rxBytes (f : Frame) : (sendReply f s).rxBytes = s.rxBytes := rfl
@[simp] theorem sendReply_rxTail (f : Frame) : (sendReply f s).rxTail = s.rxTail := rfl
@[simp] theorem sendReply_rxEnd (f : Frame) : (sendReply f s).rxEnd = s.rxEnd := rfl
@[simp] theorem sendReply_rxPos (f : Frame) : (sendReply f s).rxPos = s.rxPos := rfl
@[simp] theorem sendReply_txLog (f : Frame) : (sendReply f s).txLog = s.txLog := rfl
@[simp] theorem sendReply_rxCuts (f : Frame) : (sendReply f s).rxCuts = s.rxCuts := rfl
@[simp] theorem sendReply_txAnswers (f : Frame) : (sendReply f s).txAnswers = s.txAnswers := rfl
@[simp] theorem sendReply_closeAnswers (f : Frame) : (sendReply f s).closeAnswers = s.closeAnswers := rfl
@[simp] theorem sendReply_txPartial (f : Frame) : (sendReply f s).txPartial = s.txPartial := rfl

/-! ## dropFrame -/

@[simp] theorem dropFrame_params : (dropFrame s).params = s.params := rfl
@[simp] theorem dropFrame_conn : (dropFrame s).conn = s.conn := rfl
@[simp] theorem dropFrame_phase : (dropFrame s).phase = .rxHdr := rfl
@[simp] theorem dropFrame_status : (dropFrame s).status = s.status := rfl
@[simp] theorem dropFrame_err : (dropFrame s).err = s.err := rfl
@[simp] theorem dropFrame_closeSent : (dropFrame s).closeSent = s.closeSent := rfl
@[simp] theorem dropFrame_streamClosed : (dropFrame s).streamClosed = s.streamClosed := rfl
@[simp] theorem dropFrame_keyIn : (dropFrame s).keyIn = s.keyIn := rfl
@[simp] theorem dropFrame_keyPresent : (dropFrame s).keyPresent = s.keyPresent := rfl
@[simp] theorem dropFrame_fFin : (dropFrame s).fFin = s.fFin := rfl
@[simp] theorem dropFrame_fRsv : (dropFrame s).fRsv = s.fRsv := rfl
@[simp] theorem dropFrame_fOpcode : (dropFrame s).fOpcode = s.fOpcode := rfl
@[simp] theorem dropFrame_fMask : (dropFrame s).fMask = s.fMask := rfl
@[simp] theorem dropFrame_fLen7 : (dropFrame s).fLen7 = s.fLen7 := rfl
@[simp] theorem dropFrame_fLen : (dropFrame s).fLen = s.fLen := rfl
@[simp] theorem dropFrame_fKey : (dropFrame s).fKey = s.fKey := rfl
@[simp] theorem dropFrame_fPayload : (dropFrame s).fPayload = s.fPayload := rfl
@[simp] theorem dropFrame_verdict : (dropFrame s).verdict = s.verdict := rfl
@[simp] theorem dropFrame_txBuf : (dropFrame s).txBuf = s.txBuf := rfl
@[simp] theorem dropFrame_rxNeed : (dropFrame s).rxNeed = s.rxNeed := rfl
@[simp] theorem dropFrame_rxAcc : (dropFrame s).rxAcc = s.rxAcc := rfl
@[simp] theorem dropFrame_rxBytes : (dropFrame s).rxBytes = s.rxBytes := rfl
@[simp] theorem dropFrame_rxTail : (dropFrame s).rxTail = s.rxTail := rfl
@[simp] theorem dropFrame_rxEnd : (dropFrame s).rxEnd = s.rxEnd := rfl
@[simp] theorem dropFrame_rxPos : (dropFrame s).rxPos = s.rxPos := rfl
@[simp] theorem dropFrame_txLog : (dropFrame s).txLog = s.txLog := rfl
@[simp] theorem dropFrame_rxCuts : (dropFrame s).rxCuts = s.rxCuts := rfl
@[simp] theorem dropFrame_txAnswers : (dropFrame s).txAnswers = s.txAnswers := rfl
@[simp] theorem dropFrame_closeAnswers : (dropFrame s).closeAnswers = s.closeAnswers := rfl
@[simp] theorem dropFrame_txPartial : (dropFrame s).txPartial = s.txPartial := rfl

/-! ## loadFrame -/

@[simp] theorem loadFrame_params (i : Instr) : (loadFrame i s).params = s.params := rfl
@[simp] theorem loadFrame_conn (i : Instr) : (loadFrame i s).conn = s.conn := rfl
@[simp] theorem loadFrame_phase (i : Instr) : (loadFrame i s).phase = s.phase := rfl
@[simp] theorem loadFrame_status (i : Instr) : (loadFrame i s).status = s.status := rfl
@[simp] theorem loadFrame_err (i : Instr) : (loadFrame i s).err = s.err := rfl
@[simp] theorem loadFrame_closeSent (i : Instr) : (loadFrame i s).closeSent = s.closeSent := rfl
@[simp] theorem loadFrame_streamClosed (i : Instr) : (loadFrame i s).streamClosed = s.streamClosed := rfl
@[simp] theorem loadFrame_keyIn (i : Instr) : (loadFrame i s).keyIn = s.keyIn := rfl
@[simp] theorem loadFrame_keyPresent (i : Instr) : (loadFrame i s).keyPresent = s.keyPresent := rfl
@[simp] theorem loadFrame_fFin (i : Instr) : (loadFrame i s).fFin = i.ops.fin := rfl
@[simp] theorem loadFrame_fRsv (i : Instr) : (loadFrame i s).fRsv = i.ops.rsv := rfl
@[simp] theorem loadFrame_fOpcode (i : Instr) : (loadFrame i s).fOpcode = i.opcode := rfl
@[simp] theorem loadFrame_fMask (i : Instr) : (loadFrame i s).fMask = i.ops.masked := rfl
@[simp] theorem loadFrame_fLen7 (i : Instr) : (loadFrame i s).fLen7 = i.ops.form.len7 i.ops.len := rfl
@[simp] theorem loadFrame_fLen (i : Instr) : (loadFrame i s).fLen = i.ops.len := rfl
@[simp] theorem loadFrame_fKey (i : Instr) : (loadFrame i s).fKey = i.ops.key.getD s.fKey := rfl
@[simp] theorem loadFrame_fPayload (i : Instr) : (loadFrame i s).fPayload = i.ops.payload := rfl
@[simp] theorem loadFrame_verdict (i : Instr) : (loadFrame i s).verdict = s.verdict := rfl
@[simp] theorem loadFrame_txBuf (i : Instr) : (loadFrame i s).txBuf = s.txBuf := rfl
@[simp] theorem loadFrame_rxNeed (i : Instr) : (loadFrame i s).rxNeed = s.rxNeed := rfl
@[simp] theorem loadFrame_rxAcc (i : Instr) : (loadFrame i s).rxAcc = s.rxAcc := rfl
@[simp] theorem loadFrame_rxBytes (i : Instr) : (loadFrame i s).rxBytes = s.rxBytes := rfl
@[simp] theorem loadFrame_rxTail (i : Instr) : (loadFrame i s).rxTail = s.rxTail := rfl
@[simp] theorem loadFrame_rxEnd (i : Instr) : (loadFrame i s).rxEnd = s.rxEnd := rfl
@[simp] theorem loadFrame_rxPos (i : Instr) : (loadFrame i s).rxPos = s.rxPos := rfl
@[simp] theorem loadFrame_txLog (i : Instr) : (loadFrame i s).txLog = s.txLog := rfl
@[simp] theorem loadFrame_rxCuts (i : Instr) : (loadFrame i s).rxCuts = s.rxCuts := rfl
@[simp] theorem loadFrame_txAnswers (i : Instr) : (loadFrame i s).txAnswers = s.txAnswers := rfl
@[simp] theorem loadFrame_closeAnswers (i : Instr) : (loadFrame i s).closeAnswers = s.closeAnswers := rfl
@[simp] theorem loadFrame_txPartial (i : Instr) : (loadFrame i s).txPartial = s.txPartial := rfl

/-! ## takeData -/

@[simp] theorem takeData_params (c : List Byte) : (takeData c s).params = s.params := rfl
@[simp] theorem takeData_conn (c : List Byte) : (takeData c s).conn = s.conn := rfl
@[simp] theorem takeData_phase (c : List Byte) : (takeData c s).phase = s.phase := rfl
@[simp] theorem takeData_status (c : List Byte) : (takeData c s).status = s.status := rfl
@[simp] theorem takeData_err (c : List Byte) : (takeData c s).err = s.err := rfl
@[simp] theorem takeData_closeSent (c : List Byte) : (takeData c s).closeSent = s.closeSent := rfl
@[simp] theorem takeData_streamClosed (c : List Byte) : (takeData c s).streamClosed = s.streamClosed := rfl
@[simp] theorem takeData_keyIn (c : List Byte) : (takeData c s).keyIn = s.keyIn := rfl
@[simp] theorem takeData_keyPresent (c : List Byte) : (takeData c s).keyPresent = s.keyPresent := rfl
@[simp] theorem takeData_fFin (c : List Byte) : (takeData c s).fFin = s.fFin := rfl
@[simp] theorem takeData_fRsv (c : List Byte) : (takeData c s).fRsv = s.fRsv := rfl
@[simp] theorem takeData_fOpcode (c : List Byte) : (takeData c s).fOpcode = s.fOpcode := rfl
@[simp] theorem takeData_fMask (c : List Byte) : (takeData c s).fMask = s.fMask := rfl
@[simp] theorem takeData_fLen7 (c : List Byte) : (takeData c s).fLen7 = s.fLen7 := rfl
@[simp] theorem takeData_fLen (c : List Byte) : (takeData c s).fLen = s.fLen := rfl
@[simp] theorem takeData_fKey (c : List Byte) : (takeData c s).fKey = s.fKey := rfl
@[simp] theorem takeData_fPayload (c : List Byte) : (takeData c s).fPayload = s.fPayload := rfl
@[simp] theorem takeData_verdict (c : List Byte) : (takeData c s).verdict = s.verdict := rfl
@[simp] theorem takeData_txBuf (c : List Byte) : (takeData c s).txBuf = s.txBuf := rfl
@[simp] theorem takeData_rxNeed (c : List Byte) : (takeData c s).rxNeed = s.rxNeed - BitVec.ofNat 64 c.length := rfl
@[simp] theorem takeData_rxAcc (c : List Byte) : (takeData c s).rxAcc = s.rxAcc ++ c := rfl
@[simp] theorem takeData_rxBytes (c : List Byte) : (takeData c s).rxBytes = s.rxBytes := rfl
@[simp] theorem takeData_rxTail (c : List Byte) : (takeData c s).rxTail = s.rxTail := rfl
@[simp] theorem takeData_rxEnd (c : List Byte) : (takeData c s).rxEnd = s.rxEnd := rfl
@[simp] theorem takeData_rxPos (c : List Byte) : (takeData c s).rxPos = s.rxPos + c.length := rfl
@[simp] theorem takeData_txLog (c : List Byte) : (takeData c s).txLog = s.txLog := rfl
@[simp] theorem takeData_rxCuts (c : List Byte) : (takeData c s).rxCuts = s.rxCuts.rest := rfl
@[simp] theorem takeData_txAnswers (c : List Byte) : (takeData c s).txAnswers = s.txAnswers := rfl
@[simp] theorem takeData_closeAnswers (c : List Byte) : (takeData c s).closeAnswers = s.closeAnswers := rfl
@[simp] theorem takeData_txPartial (c : List Byte) : (takeData c s).txPartial = s.txPartial := rfl

/-! ## takePayload -/

@[simp] theorem takePayload_params (r : List Byte) : (takePayload r s).params = s.params := rfl
@[simp] theorem takePayload_conn (r : List Byte) : (takePayload r s).conn = s.conn := rfl
@[simp] theorem takePayload_phase (r : List Byte) : (takePayload r s).phase = .check := rfl
@[simp] theorem takePayload_status (r : List Byte) : (takePayload r s).status = s.status := rfl
@[simp] theorem takePayload_err (r : List Byte) : (takePayload r s).err = s.err := rfl
@[simp] theorem takePayload_closeSent (r : List Byte) : (takePayload r s).closeSent = s.closeSent := rfl
@[simp] theorem takePayload_streamClosed (r : List Byte) : (takePayload r s).streamClosed = s.streamClosed := rfl
@[simp] theorem takePayload_keyIn (r : List Byte) : (takePayload r s).keyIn = s.keyIn := rfl
@[simp] theorem takePayload_keyPresent (r : List Byte) : (takePayload r s).keyPresent = s.keyPresent := rfl
@[simp] theorem takePayload_fFin (r : List Byte) : (takePayload r s).fFin = s.fFin := rfl
@[simp] theorem takePayload_fRsv (r : List Byte) : (takePayload r s).fRsv = s.fRsv := rfl
@[simp] theorem takePayload_fOpcode (r : List Byte) : (takePayload r s).fOpcode = s.fOpcode := rfl
@[simp] theorem takePayload_fMask (r : List Byte) : (takePayload r s).fMask = s.fMask := rfl
@[simp] theorem takePayload_fLen7 (r : List Byte) : (takePayload r s).fLen7 = s.fLen7 := rfl
@[simp] theorem takePayload_fLen (r : List Byte) : (takePayload r s).fLen = s.fLen := rfl
@[simp] theorem takePayload_fKey (r : List Byte) : (takePayload r s).fKey = s.fKey := rfl
@[simp] theorem takePayload_fPayload (r : List Byte) : (takePayload r s).fPayload = if keyed s.params s.fMask then applyMask r s.fKey else r := rfl
@[simp] theorem takePayload_verdict (r : List Byte) : (takePayload r s).verdict = s.verdict := rfl
@[simp] theorem takePayload_txBuf (r : List Byte) : (takePayload r s).txBuf = s.txBuf := rfl
@[simp] theorem takePayload_rxNeed (r : List Byte) : (takePayload r s).rxNeed = s.rxNeed := rfl
@[simp] theorem takePayload_rxAcc (r : List Byte) : (takePayload r s).rxAcc = s.rxAcc := rfl
@[simp] theorem takePayload_rxBytes (r : List Byte) : (takePayload r s).rxBytes = s.rxBytes := rfl
@[simp] theorem takePayload_rxTail (r : List Byte) : (takePayload r s).rxTail = s.rxTail := rfl
@[simp] theorem takePayload_rxEnd (r : List Byte) : (takePayload r s).rxEnd = s.rxEnd := rfl
@[simp] theorem takePayload_rxPos (r : List Byte) : (takePayload r s).rxPos = s.rxPos := rfl
@[simp] theorem takePayload_txLog (r : List Byte) : (takePayload r s).txLog = s.txLog := rfl
@[simp] theorem takePayload_rxCuts (r : List Byte) : (takePayload r s).rxCuts = s.rxCuts := rfl
@[simp] theorem takePayload_txAnswers (r : List Byte) : (takePayload r s).txAnswers = s.txAnswers := rfl
@[simp] theorem takePayload_closeAnswers (r : List Byte) : (takePayload r s).closeAnswers = s.closeAnswers := rfl
@[simp] theorem takePayload_txPartial (r : List Byte) : (takePayload r s).txPartial = s.txPartial := rfl

/-! ## beginRead -/

@[simp] theorem beginRead_params (n : BitVec 64) : (beginRead n s).params = s.params := by unfold beginRead; split <;> rfl
@[simp] theorem beginRead_conn (n : BitVec 64) : (beginRead n s).conn = s.conn := by unfold beginRead; split <;> rfl
@[simp] theorem beginRead_phase (n : BitVec 64) : (beginRead n s).phase = s.phase := by unfold beginRead; split <;> rfl
@[simp] theorem beginRead_status (n : BitVec 64) : (beginRead n s).status = s.status := by unfold beginRead; split <;> rfl
@[simp] theorem beginRead_err (n : BitVec 64) : (beginRead n s).err = s.err := by unfold beginRead; split <;> rfl
@[simp] theorem beginRead_closeSent (n : BitVec 64) : (beginRead n s).closeSent = s.closeSent := by unfold beginRead; split <;> rfl
@[simp] theorem beginRead_streamClosed (n : BitVec 64) : (beginRead n s).streamClosed = s.streamClosed := by unfold beginRead; split <;> rfl
@[simp] theorem beginRead_keyIn (n : BitVec 64) : (beginRead n s).keyIn = s.keyIn := by unfold beginRead; split <;> rfl
@[simp] theorem beginRead_keyPresent (n : BitVec 64) : (beginRead n s).keyPresent = s.keyPresent := by unfold beginRead; split <;> rfl
@[simp] theorem beginRead_fFin (n : BitVec 64) : (beginRead n s).fFin = s.fFin := by unfold beginRead; split <;> rfl
@[simp] theorem beginRead_fRsv (n : BitVec 64) : (beginRead n s).fRsv = s.fRsv := by unfold beginRead; split <;> rfl
@[simp] theorem beginRead_fOpcode (n : BitVec 64) : (beginRead n s).fOpcode = s.fOpcode := by unfold beginRead; split <;> rfl
@[simp] theorem beginRead_fMask (n : BitVec 64) : (beginRead n s).fMask = s.fMask := by unfold beginRead; split <;> rfl
@[simp] theorem beginRead_fLen7 (n : BitVec 64) : (beginRead n s).fLen7 = s.fLen7 := by unfold beginRead; split <;> rfl
@[simp] theorem beginRead_fLen (n : BitVec 64) : (beginRead n s).fLen = s.fLen := by unfold beginRead; split <;> rfl
@[simp] theorem beginRead_fKey (n : BitVec 64) : (beginRead n s).fKey = s.fKey := by unfold beginRead; split <;> rfl
@[simp] theorem beginRead_fPayload (n : BitVec 64) : (beginRead n s).fPayload = s.fPayload := by unfold beginRead; split <;> rfl
@[simp] theorem beginRead_verdict (n : BitVec 64) : (beginRead n s).verdict = s.verdict := by unfold beginRead; split <;> rfl
@[simp] theorem beginRead_txBuf (n : BitVec 64) : (beginRead n s).txBuf = s.txBuf := by unfold beginRead; split <;> rfl
@[simp] theorem beginRead_rxBytes (n : BitVec 64) : (beginRead n s).rxBytes = s.rxBytes := by unfold beginRead; split <;> rfl
@[simp] theorem beginRead_rxTail (n : BitVec 64) : (beginRead n s).rxTail = s.rxTail := by unfold beginRead; split <;> rfl
@[simp] theorem beginRead_rxEnd (n : BitVec 64) : (beginRead n s).rxEnd = s.rxEnd := by unfold beginRead; split <;> rfl
@[simp] theorem beginRead_rxPos (n : BitVec 64) : (beginRead n s).rxPos = s.rxPos := by unfold beginRead; split <;> rfl
@[simp] theorem beginRead_txLog (n : BitVec 64) : (beginRead n s).txLog = s.txLog := by unfold beginRead; split <;> rfl
@[simp] theorem beginRead_rxCuts (n : BitVec 64) : (beginRead n s).rxCuts = s.rxCuts := by unfold beginRead; split <;> rfl
@[simp] theorem beginRead_txAnswers (n : BitVec 64) : (beginRead n s).txAnswers = s.txAnswers := by unfold beginRead; split <;> rfl
@[simp] theorem beginRead_closeAnswers (n : BitVec 64) : (beginRead n s).closeAnswers = s.closeAnswers := by unfold beginRead; split <;> rfl
@[simp] theorem beginRead_txPartial (n : BitVec 64) : (beginRead n s).txPartial = s.txPartial := by unfold beginRead; split <;> rfl

/-! ## errorEntry -/

@[simp] theorem errorEntry_params (e : Exn) : (errorEntry e s).params = s.params := rfl
@[simp] theorem errorEntry_conn (e : Exn) : (errorEntry e s).conn = s.conn := rfl
@[simp] theorem errorEntry_phase (e : Exn) : (errorEntry e s).phase = s.phase := rfl
@[simp] theorem errorEntry_status (e : Exn) : (errorEntry e s).status = s.status := rfl
@[simp] theorem errorEntry_err (e : Exn) : (errorEntry e s).err = e.errCode := rfl
@[simp] theorem errorEntry_closeSent (e : Exn) : (errorEntry e s).closeSent = s.closeSent := rfl
@[simp] theorem errorEntry_streamClosed (e : Exn) : (errorEntry e s).streamClosed = s.streamClosed := rfl
@[simp] theorem errorEntry_keyIn (e : Exn) : (errorEntry e s).keyIn = s.keyIn := rfl
@[simp] theorem errorEntry_keyPresent (e : Exn) : (errorEntry e s).keyPresent = s.keyPresent := rfl
@[simp] theorem errorEntry_fFin (e : Exn) : (errorEntry e s).fFin = s.fFin := rfl
@[simp] theorem errorEntry_fRsv (e : Exn) : (errorEntry e s).fRsv = s.fRsv := rfl
@[simp] theorem errorEntry_fOpcode (e : Exn) : (errorEntry e s).fOpcode = s.fOpcode := rfl
@[simp] theorem errorEntry_fMask (e : Exn) : (errorEntry e s).fMask = s.fMask := rfl
@[simp] theorem errorEntry_fLen7 (e : Exn) : (errorEntry e s).fLen7 = s.fLen7 := rfl
@[simp] theorem errorEntry_fLen (e : Exn) : (errorEntry e s).fLen = s.fLen := rfl
@[simp] theorem errorEntry_fKey (e : Exn) : (errorEntry e s).fKey = s.fKey := rfl
@[simp] theorem errorEntry_fPayload (e : Exn) : (errorEntry e s).fPayload = s.fPayload := rfl
@[simp] theorem errorEntry_verdict (e : Exn) : (errorEntry e s).verdict = s.verdict := rfl
@[simp] theorem errorEntry_txBuf (e : Exn) : (errorEntry e s).txBuf = [] := rfl
@[simp] theorem errorEntry_rxNeed (e : Exn) : (errorEntry e s).rxNeed = s.rxNeed := rfl
@[simp] theorem errorEntry_rxAcc (e : Exn) : (errorEntry e s).rxAcc = s.rxAcc := rfl
@[simp] theorem errorEntry_rxBytes (e : Exn) : (errorEntry e s).rxBytes = s.rxBytes := rfl
@[simp] theorem errorEntry_rxTail (e : Exn) : (errorEntry e s).rxTail = s.rxTail := rfl
@[simp] theorem errorEntry_rxEnd (e : Exn) : (errorEntry e s).rxEnd = s.rxEnd := rfl
@[simp] theorem errorEntry_rxPos (e : Exn) : (errorEntry e s).rxPos = s.rxPos := rfl
@[simp] theorem errorEntry_txLog (e : Exn) : (errorEntry e s).txLog = s.txLog := rfl
@[simp] theorem errorEntry_rxCuts (e : Exn) : (errorEntry e s).rxCuts = s.rxCuts := rfl
@[simp] theorem errorEntry_txAnswers (e : Exn) : (errorEntry e s).txAnswers = s.txAnswers := rfl
@[simp] theorem errorEntry_closeAnswers (e : Exn) : (errorEntry e s).closeAnswers = s.closeAnswers := rfl
@[simp] theorem errorEntry_txPartial (e : Exn) : (errorEntry e s).txPartial = s.txPartial := rfl

/-! ## finishErrorEntry -/

@[simp] theorem finishErrorEntry_params : (finishErrorEntry s).params = s.params := by unfold finishErrorEntry; split <;> [rfl; (split <;> rfl)]
@[simp] theorem finishErrorEntry_status : (finishErrorEntry s).status = s.status := by unfold finishErrorEntry; split <;> [rfl; (split <;> rfl)]
@[simp] theorem finishErrorEntry_err : (finishErrorEntry s).err = s.err := by unfold finishErrorEntry; split <;> [rfl; (split <;> rfl)]
@[simp] theorem finishErrorEntry_closeSent : (finishErrorEntry s).closeSent = s.closeSent := by unfold finishErrorEntry; split <;> [rfl; (split <;> rfl)]
@[simp] theorem finishErrorEntry_keyIn : (finishErrorEntry s).keyIn = s.keyIn := by unfold finishErrorEntry; split <;> [rfl; (split <;> rfl)]
@[simp] theorem finishErrorEntry_keyPresent : (finishErrorEntry s).keyPresent = s.keyPresent := by unfold finishErrorEntry; split <;> [rfl; (split <;> rfl)]
@[simp] theorem finishErrorEntry_fFin : (finishErrorEntry s).fFin = s.fFin := by unfold finishErrorEntry; split <;> [rfl; (split <;> rfl)]
@[simp] theorem finishErrorEntry_fRsv : (finishErrorEntry s).fRsv = s.fRsv := by unfold finishErrorEntry; split <;> [rfl; (split <;> rfl)]
@[simp] theorem finishErrorEntry_fOpcode : (finishErrorEntry s).fOpcode = s.fOpcode := by unfold finishErrorEntry; split <;> [rfl; (split <;> rfl)]
@[simp] theorem finishErrorEntry_fMask : (finishErrorEntry s).fMask = s.fMask := by unfold finishErrorEntry; split <;> [rfl; (split <;> rfl)]
@[simp] theorem finishErrorEntry_fLen7 : (finishErrorEntry s).fLen7 = s.fLen7 := by unfold finishErrorEntry; split <;> [rfl; (split <;> rfl)]
@[simp] theorem finishErrorEntry_fLen : (finishErrorEntry s).fLen = s.fLen := by unfold finishErrorEntry; split <;> [rfl; (split <;> rfl)]
@[simp] theorem finishErrorEntry_fKey : (finishErrorEntry s).fKey = s.fKey := by unfold finishErrorEntry; split <;> [rfl; (split <;> rfl)]
@[simp] theorem finishErrorEntry_fPayload : (finishErrorEntry s).fPayload = s.fPayload := by unfold finishErrorEntry; split <;> [rfl; (split <;> rfl)]
@[simp] theorem finishErrorEntry_verdict : (finishErrorEntry s).verdict = s.verdict := by unfold finishErrorEntry; split <;> [rfl; (split <;> rfl)]
@[simp] theorem finishErrorEntry_txBuf : (finishErrorEntry s).txBuf = s.txBuf := by unfold finishErrorEntry; split <;> [rfl; (split <;> rfl)]
@[simp] theorem finishErrorEntry_rxNeed : (finishErrorEntry s).rxNeed = s.rxNeed := by unfold finishErrorEntry; split <;> [rfl; (split <;> rfl)]
@[simp] theorem finishErrorEntry_rxAcc : (finishErrorEntry s).rxAcc = s.rxAcc := by unfold finishErrorEntry; split <;> [rfl; (split <;> rfl)]
@[simp] theorem finishErrorEntry_rxBytes : (finishErrorEntry s).rxBytes = s.rxBytes := by unfold finishErrorEntry; split <;> [rfl; (split <;> rfl)]
@[simp] theorem finishErrorEntry_rxTail : (finishErrorEntry s).rxTail = s.rxTail := by unfold finishErrorEntry; split <;> [rfl; (split <;> rfl)]
@[simp] theorem finishErrorEntry_rxEnd : (finishErrorEntry s).rxEnd = s.rxEnd := by unfold finishErrorEntry; split <;> [rfl; (split <;> rfl)]
@[simp] theorem finishErrorEntry_rxPos : (finishErrorEntry s).rxPos = s.rxPos := by unfold finishErrorEntry; split <;> [rfl; (split <;> rfl)]
@[simp] theorem finishErrorEntry_txLog : (finishErrorEntry s).txLog = s.txLog := by unfold finishErrorEntry; split <;> [rfl; (split <;> rfl)]
@[simp] theorem finishErrorEntry_rxCuts : (finishErrorEntry s).rxCuts = s.rxCuts := by unfold finishErrorEntry; split <;> [rfl; (split <;> rfl)]
@[simp] theorem finishErrorEntry_txAnswers : (finishErrorEntry s).txAnswers = s.txAnswers := by unfold finishErrorEntry; split <;> [rfl; (split <;> rfl)]
@[simp] theorem finishErrorEntry_closeAnswers : (finishErrorEntry s).closeAnswers = s.closeAnswers := by unfold finishErrorEntry; split <;> [rfl; (split <;> rfl)]
@[simp] theorem finishErrorEntry_txPartial : (finishErrorEntry s).txPartial = s.txPartial := by unfold finishErrorEntry; split <;> [rfl; (split <;> rfl)]

end Sys2Proof.Machine
end

