-- ==== Sys2Proof/Laws/Ops.lean ====
section
/-! SUPPORT. What each shared operation can do, said once: the error entry, the answers of the stream, the port
primitives, phase CHECK, and the step. -/

namespace Sys2Proof.Machine

/-! ## The error entry -/

/-- With the stream's CLOSE answered, the error entry ends in DONE (R262). -/
theorem finishErrorEntry_closes {s : State} (ha : s.closeAnswers = true) (hc : s.streamClosed = false) :
    finishErrorEntry s = { s with streamClosed := true, conn := .closed, phase := .done } := by
  simp [finishErrorEntry, ha, hc]

/-- The end of the error entry reaches DONE or changes nothing. -/
theorem finishErrorEntry_cases (s : State) :
    (finishErrorEntry s = { s with streamClosed := true, conn := .closed, phase := .done } ∧
      (s.streamClosed = true ∨ s.closeAnswers = true)) ∨
    (finishErrorEntry s = s ∧ s.streamClosed = false ∧ s.closeAnswers = false) := by
  cases hc : s.streamClosed <;> cases ha : s.closeAnswers <;> simp [finishErrorEntry, hc, ha]

/-! ## The coming answers of a stream -/

@[simp] theorem Answers.pop_listed {α : Type} (x : α) (xs again : List α) :
    (⟨x :: xs, again⟩ : Answers α).pop = some (x, ⟨xs, again⟩) := rfl

/-- Whatever is popped, the answers that are repeated stay. -/
theorem Answers.pop_again {α : Type} {a r : Answers α} {x : α} (h : a.pop = some (x, r)) : r.again = a.again := by
  unfold Answers.pop at h
  split at h <;> cases h <;> simp_all

theorem Answers.rest_of_pop {α : Type} {a r : Answers α} {x : α} (h : a.pop = some (x, r)) : a.rest = r := by
  simp only [Answers.rest, h]

@[simp] theorem Answers.rest_again {α : Type} (a : Answers α) : a.rest.again = a.again := by
  unfold Answers.rest
  split
  · exact Answers.pop_again ‹_›
  · rfl

/-! ## The bytes of the RX stream -/

/-- A finite sequence is its listed bytes (R51). -/
theorem rxByte_finite {s : State} (h : s.rxTail = .none) (i : Nat) : rxByte s i = s.rxBytes[i]? := by
  unfold rxByte
  split
  · rfl
  · simp only [h]; rw [List.getElem?_eq_none (by omega)]

/-- A sequence without an end has a byte at every place (R51). -/
theorem rxByte_unbounded {s : State} (h : s.rxTail ≠ .none) (i : Nat) : ∃ b, rxByte s i = some b := by
  unfold rxByte
  split
  · exact ⟨_, List.getElem?_eq_getElem ‹_›⟩
  · cases ht : s.rxTail with
    | none => exact absurd ht h
    | cycle b bs => exact ⟨_, List.getElem?_eq_getElem (by simpa using Nat.mod_lt _ (Nat.succ_pos _))⟩
    | free k => exact ⟨_, rfl⟩

theorem rxBytesFrom_finite {s : State} (h : s.rxTail = .none) (m i : Nat) :
    rxBytesFrom s m i = (s.rxBytes.drop i).take m := by
  induction m generalizing i with
  | zero => simp [rxBytesFrom]
  | succ m ih =>
    rw [rxBytesFrom, rxByte_finite h]
    by_cases hi : i < s.rxBytes.length
    · rw [List.getElem?_eq_getElem hi, List.drop_eq_getElem_cons hi, List.take_succ_cons, ← ih]
    · rw [List.getElem?_eq_none (by omega), List.drop_eq_nil_of_le (by omega)]
      simp

theorem rxBytesFrom_unbounded_length {s : State} (h : s.rxTail ≠ .none) (m i : Nat) :
    (rxBytesFrom s m i).length = m := by
  induction m generalizing i with
  | zero => rfl
  | succ m ih =>
    obtain ⟨b, hb⟩ := rxByte_unbounded h i
    simp [rxBytesFrom, hb, ih]

theorem rxBytesFrom_length_le (s : State) (m i : Nat) : (rxBytesFrom s m i).length ≤ m := by
  by_cases h : s.rxTail = .none
  · rw [rxBytesFrom_finite h]; simp
  · rw [rxBytesFrom_unbounded_length h]

/-- The next bytes, and the bytes after them. -/
theorem rxBytesFrom_add (s : State) (m n i : Nat) (h : (rxBytesFrom s m i).length = m) :
    rxBytesFrom s (m + n) i = rxBytesFrom s m i ++ rxBytesFrom s n (i + m) := by
  induction m generalizing i with
  | zero => simp [rxBytesFrom]
  | succ m ih =>
    rw [Nat.add_right_comm, rxBytesFrom, rxBytesFrom]
    rw [rxBytesFrom] at h
    cases hb : rxByte s i with
    | none => simp [hb] at h
    | some b =>
      simp only [hb, List.length_cons, Nat.add_right_cancel_iff] at h
      simp [ih (i + 1) h, Nat.add_assoc, Nat.add_comm 1]

/-- Fewer of the next bytes are the first of them. -/
theorem rxBytesFrom_take (s : State) {m n : Nat} (h : m ≤ n) (i : Nat) :
    (rxBytesFrom s n i).take m = rxBytesFrom s m i := by
  induction n generalizing m i with
  | zero => simp [Nat.le_zero.mp h, rxBytesFrom]
  | succ n ih =>
    cases m with
    | zero => simp [rxBytesFrom]
    | succ m =>
      rw [rxBytesFrom, rxBytesFrom]
      cases rxByte s i with
      | none => rfl
      | some b => simp [ih (Nat.le_of_succ_le_succ h)]

/-- The bytes of the peer's sequence are read from two registers of the stream. -/
theorem rxBytesFrom_congr {s t : State} (hb : t.rxBytes = s.rxBytes) (ht : t.rxTail = s.rxTail) (m i : Nat) :
    rxBytesFrom t m i = rxBytesFrom s m i := by
  induction m generalizing i with
  | zero => rfl
  | succ m ih => simp only [rxBytesFrom, ih, rxByte, hb, ht]

/-- The next bytes are read from three registers of the stream. -/
theorem rxNext_congr {s t : State} (hb : t.rxBytes = s.rxBytes) (ht : t.rxTail = s.rxTail)
    (hp : t.rxPos = s.rxPos) (m : Nat) : rxNext m t = rxNext m s := by
  unfold rxNext; rw [hp]; exact rxBytesFrom_congr hb ht m _

theorem rxNext_length_le (m : Nat) (s : State) : (rxNext m s).length ≤ m := rxBytesFrom_length_le s m _

theorem rxNext_take {m n : Nat} (h : m ≤ n) (s : State) : (rxNext n s).take m = rxNext m s :=
  rxBytesFrom_take s h _

/-- A finite stream's next bytes are the first of those left. -/
theorem rxNext_finite {s : State} (h : s.rxTail = .none) (m : Nat) : rxNext m s = (rxRest s).take m :=
  rxBytesFrom_finite h m _

/-- The next bytes are as many as there are. -/
theorem rxNext_of_length (m : Nat) (s : State) : rxNext (rxNext m s).length s = rxNext m s := by
  rw [← rxNext_take (rxNext_length_le m s), List.take_length]

/-- Once `m` bytes are consumed, the next ones are those that stood after them. -/
theorem rxNext_after {s t : State} {m : Nat} (hb : t.rxBytes = s.rxBytes) (ht : t.rxTail = s.rxTail)
    (hp : t.rxPos = s.rxPos + m) (hm : (rxNext m s).length = m) (n : Nat) :
    rxNext (m + n) s = rxNext m s ++ rxNext n t := by
  unfold rxNext at *
  rw [rxBytesFrom_add s m n _ hm, hp, rxBytesFrom_congr hb ht]

/-- No more bytes than were sent are consumed (R51). -/
theorem rxNext_in_bounds {s : State} (h : s.rxTail = .none) (hp : s.rxPos ≤ s.rxBytes.length) (m : Nat) :
    s.rxPos + (rxNext m s).length ≤ s.rxBytes.length := by
  rw [rxNext_finite h]; simp [rxRest]; omega

/-! ## The answers of the RX stream -/

/-- A `Data` answer is the next bytes of the stream, at most as many as were asked for (R41, R51). -/
theorem rxAnswer_data {max : Nat} {s : State} {c : List Byte} (h : rxAnswer max s = .data c) :
    c.length ≤ max ∧ c = rxNext c.length s := by
  unfold rxAnswer at h
  split at h
  · cases h
  · rename_i cut _ _
    split at h
    · cases h; exact ⟨Nat.zero_le _, rfl⟩
    · split at h
      · split at h <;> cases h
      · rename_i b bs heq
        cases h
        have hl := rxNext_length_le (min cut max) s
        rw [heq] at hl
        exact ⟨by omega, by rw [← heq, rxNext_of_length]⟩

/-- What an answer that brings bytes can be, by the number of bytes left (R41, R51, R54). -/
theorem rxAnswer_of_pop {max cut : Nat} {cuts : Answers Nat} {s : State} (hc : s.rxCuts.pop = some (cut, cuts))
    (hcut : 0 < cut) :
    rxAnswer max s =
      if rxNext (min cut max) s = [] then
        match s.rxEnd with | .never => .silent | .eof => .eof | .error => .error
      else .data (rxNext (min cut max) s) := by
  have : cut ≠ 0 := by omega
  simp only [rxAnswer, hc, this, if_false]
  cases rxNext (min cut max) s <;> rfl

/-- There are next bytes exactly when there is a next one. -/
theorem rxNext_eq_nil_iff {s : State} {m : Nat} (h : 0 < m) : rxNext m s = [] ↔ rxNext 1 s = [] := by
  rw [← rxNext_take h s]
  cases rxNext m s <;> simp

/-- An answer of size 0 is `Data([])` (R54). -/
theorem rxAnswer_zero {max : Nat} {cuts : Answers Nat} {s : State} (hc : s.rxCuts.pop = some (0, cuts)) :
    rxAnswer max s = .data [] := by
  simp [rxAnswer, hc]

/-- With no answer due the request waits (R54, R300). -/
theorem rxAnswer_none {max : Nat} {s : State} (hc : s.rxCuts.pop = none) : rxAnswer max s = .silent := by
  simp [rxAnswer, hc]

/-! ## StreamRead (R53) -/

/-- Everything one transaction of `StreamRead(n)` can do. -/
theorem streamRead_cases (n : BitVec 64) (cont : List Byte → State → State) (s : State) :
    (∃ c, rxAnswer (beginRead n s).rxNeed.toNat (beginRead n s) = .data c ∧
      (((takeData c (beginRead n s)).rxNeed = 0 ∧
          streamRead n cont s = cont (takeData c (beginRead n s)).rxAcc (takeData c (beginRead n s))) ∨
        ((takeData c (beginRead n s)).rxNeed ≠ 0 ∧ streamRead n cont s = takeData c (beginRead n s)))) ∨
    (rxAnswer (beginRead n s).rxNeed.toNat (beginRead n s) = .eof ∧
      streamRead n cont s =
        errorEntry (.ioFailure .shortRead) { beginRead n s with rxCuts := s.rxCuts.rest }) ∨
    (rxAnswer (beginRead n s).rxNeed.toNat (beginRead n s) = .error ∧
      streamRead n cont s =
        errorEntry (.ioFailure .streamError) { beginRead n s with rxCuts := s.rxCuts.rest }) ∨
    (rxAnswer (beginRead n s).rxNeed.toNat (beginRead n s) = .silent ∧ streamRead n cont s = beginRead n s) := by
  cases h : rxAnswer (beginRead n s).rxNeed.toNat (beginRead n s) with
  | data c =>
    by_cases hz : (takeData c (beginRead n s)).rxNeed = 0
    · exact .inl ⟨c, rfl, .inl ⟨hz, by simp only [streamRead, h, hz, if_true]⟩⟩
    · exact .inl ⟨c, rfl, .inr ⟨hz, by simp only [streamRead, h, hz, if_false]⟩⟩
  | eof => exact .inr (.inl ⟨rfl, by simp only [streamRead, h, beginRead_rxCuts]⟩)
  | error => exact .inr (.inr (.inl ⟨rfl, by simp only [streamRead, h, beginRead_rxCuts]⟩))
  | silent => exact .inr (.inr (.inr ⟨rfl, by simp only [streamRead, h]⟩))

/-- A read not yet begun asks for all of its bytes. -/
theorem beginRead_fresh {n : BitVec 64} {s : State} (h : s.rxNeed = 0) :
    beginRead n s = { s with rxNeed := n, rxAcc := [] } := by
  simp [beginRead, h]

/-- A read under way goes on. -/
theorem beginRead_under_way {n : BitVec 64} {s : State} (h : s.rxNeed ≠ 0) : beginRead n s = s := if_neg h

/-- Once begun, a read of at least one byte owes at least one byte. -/
theorem beginRead_need_ne_zero {n : BitVec 64} {s : State} (hn : n ≠ 0) : (beginRead n s).rxNeed ≠ 0 := by
  unfold beginRead; split <;> assumption

/-- The bytes owed after a `Data` answer (R53). -/
theorem takeData_need_toNat {c : List Byte} {s : State} (h : c.length ≤ s.rxNeed.toNat) :
    (takeData c s).rxNeed.toNat = s.rxNeed.toNat - c.length := by
  have := s.rxNeed.isLt
  simp only [takeData_rxNeed, BitVec.toNat_sub, BitVec.toNat_ofNat]
  rw [Nat.mod_eq_of_lt (by omega : c.length < 2 ^ 64)]
  omega

/-! ## StreamWrite (R55) -/

/-- Everything `StreamWrite(TX_BUF)` can do. -/
theorem streamWrite_cases (cont : State → State) (s : State) :
    (s.txAnswers.pop = none ∧ streamWrite cont s = s) ∨
    (∃ r, s.txAnswers.pop = some (.done, r) ∧
      streamWrite cont s = cont { s with txAnswers := r, txLog := s.txLog ++ [s.txBuf], txBuf := [] }) ∨
    (∃ n r, s.txAnswers.pop = some (.error n, r) ∧
      streamWrite cont s =
        errorEntry (.ioFailure .writeError) { s with txAnswers := r, txPartial := s.txBuf.take n }) := by
  cases h : s.txAnswers.pop with
  | none => exact .inl ⟨rfl, by simp only [streamWrite, h]⟩
  | some a =>
    obtain ⟨_ | n, r⟩ := a
    · exact .inr (.inl ⟨r, rfl, by simp only [streamWrite, h]⟩)
    · exact .inr (.inr ⟨n, r, rfl, by simp only [streamWrite, h]⟩)

/-! ## Phase CHECK (R195 to R204) -/

/-- The dispatch of each instruction, after a verdict of `Ok` (R197). -/
def dispatchOf : Instr → State → State
  | .cont f, s => sendReply (f.frame 0) s
  | .text f, s => sendReply (f.frame 1) s
  | .binary f, s => sendReply (f.frame 2) s
  | .close f, s => peerClose f s
  | .ping f, s => sendReply (f.frame 10) { s with fOpcode := 10 }
  | .pong _, s => dropFrame s
  | .rsv3 _, s | .rsv4 _, s | .rsv5 _, s | .rsv6 _, s | .rsv7 _, s => dropFrame s
  | .rsv11 _, s | .rsv12 _, s | .rsv13 _, s | .rsv14 _, s | .rsv15 _, s => dropFrame s

/-- Every meaning is CHECK with its own dispatch. -/
theorem exec_eq_checkFrame (i : Instr) (s : State) : exec i s = checkFrame i.frame (dispatchOf i) s := by
  cases i <;> rfl

/-- A violation is latched and the frame is not dispatched (R196). -/
theorem exec_of_violation {i : Instr} {k : ViolationKind} {c : BitVec 16} (s : State)
    (h : validate i.frame = .err k c) :
    exec i s = .next (latchViolation c { s with verdict := .err k c }) := by
  simp only [exec_eq_checkFrame, checkFrame, h]

/-- A valid frame is dispatched (R197). -/
theorem exec_of_ok {i : Instr} (s : State) (h : validate i.frame = .ok) :
    exec i s = .next (dispatchOf i { s with verdict := .ok }) := by
  simp only [exec_eq_checkFrame, checkFrame, h]

/-- Everything a meaning can do. -/
theorem exec_cases (i : Instr) (s : State) :
    (∃ k c, validate i.frame = .err k c ∧
      exec i s = .next (latchViolation c { s with verdict := .err k c })) ∨
    (validate i.frame = .ok ∧ exec i s = .next (dispatchOf i { s with verdict := .ok })) := by
  cases h : validate i.frame with
  | ok => exact .inr ⟨rfl, exec_of_ok s h⟩
  | err k c => exact .inl ⟨k, c, rfl, exec_of_violation s h⟩

/-! ## The step -/

/-- The function each phase but CHECK and DONE runs. -/
def phaseStep : Phase → State → State
  | .hsStart, s => stepHsStart s
  | .hsSend, s => stepHsSend s
  | .rxHdr, s => stepRxHdr s
  | .rxExt, s => stepRxExt s
  | .rxKey, s => stepRxKey s
  | .rxPay, s => stepRxPay s
  | .check, s => s
  | .reply, s => stepReply s
  | .clSend, s => stepClSend s
  | .clClose, s => stepClClose s
  | .done, s => s

/-- Everything a step can do. -/
theorem step_cases (s : State) :
    (s.phase.conn ≠ s.conn ∧ step s = .fault .phaseOutsideState) ∨
    (s.phase.conn = s.conn ∧ s.err ≠ .none ∧ s.phase ≠ .done ∧ step s = .next (finishErrorEntry s)) ∨
    (s.phase.conn = s.conn ∧ s.err = .none ∧ s.phase = .check ∧ step s = exec (fetchInstr s) s) ∨
    (s.phase.conn = s.conn ∧ (s.err = .none ∨ s.phase = .done) ∧ s.phase ≠ .check ∧
      step s = .next (phaseStep s.phase s)) := by
  by_cases hc : s.phase.conn = s.conn
  · by_cases he : s.err = .none
    · cases hp : s.phase <;> rw [hp] at hc <;> simp [step, runStep, hp, hc, he, phaseStep]
    · cases hp : s.phase <;> rw [hp] at hc <;> simp [step, runStep, hp, hc, he, phaseStep]
  · exact .inl ⟨hc, by simp [step, runStep, hc]⟩

/-- A step in a phase other than CHECK, with no error entry pending. -/
theorem step_of_phase {s : State} (hc : s.phase.conn = s.conn) (he : s.err = .none) (hp : s.phase ≠ .check) :
    step s = .next (phaseStep s.phase s) := by
  rcases step_cases s with h | h | h | h
  · exact absurd hc h.1
  · exact absurd he h.2.1
  · exact absurd h.2.2.1 hp
  · exact h.2.2.2

/-- A step in CHECK, with no error entry pending. -/
theorem step_of_check {s : State} (hc : s.phase.conn = s.conn) (he : s.err = .none) (hp : s.phase = .check) :
    step s = exec (fetchInstr s) s := by
  rcases step_cases s with h | h | h | h
  · exact absurd hc h.1
  · exact absurd he h.2.1
  · exact h.2.2.2
  · exact absurd hp h.2.2.1

end Sys2Proof.Machine
end

