-- ==== Sys2Proof/Laws/PerInstr.lean ====
section
/-! SUPPORT. Statements about every instruction as syntax, one lemma per constructor. -/

namespace Sys2Proof.Laws.OpcodeSelects

/-- The opcode of an instruction selects that instruction again (30_encoding.md R78). -/
def Statement (i : Instr) : Prop := Instr.ofOpcode i.opcode i.ops = i

theorem cont (f : FrameOps) : Statement (.cont f) := rfl
theorem text (f : FrameOps) : Statement (.text f) := rfl
theorem binary (f : FrameOps) : Statement (.binary f) := rfl
theorem rsv3 (f : FrameOps) : Statement (.rsv3 f) := rfl
theorem rsv4 (f : FrameOps) : Statement (.rsv4 f) := rfl
theorem rsv5 (f : FrameOps) : Statement (.rsv5 f) := rfl
theorem rsv6 (f : FrameOps) : Statement (.rsv6 f) := rfl
theorem rsv7 (f : FrameOps) : Statement (.rsv7 f) := rfl
theorem close (f : FrameOps) : Statement (.close f) := rfl
theorem ping (f : FrameOps) : Statement (.ping f) := rfl
theorem pong (f : FrameOps) : Statement (.pong f) := rfl
theorem rsv11 (f : FrameOps) : Statement (.rsv11 f) := rfl
theorem rsv12 (f : FrameOps) : Statement (.rsv12 f) := rfl
theorem rsv13 (f : FrameOps) : Statement (.rsv13 f) := rfl
theorem rsv14 (f : FrameOps) : Statement (.rsv14 f) := rfl
theorem rsv15 (f : FrameOps) : Statement (.rsv15 f) := rfl

end Sys2Proof.Laws.OpcodeSelects
end

