-- ==== Sys2Proof/Laws/Run.lean ====
section
/-! SUPPORT. Runs: how steps compose, and what `StreamRead` does when the answer brings all it asks for or the stream has
ended. -/

namespace Sys2Proof.Machine

/-! ## Runs -/

theorem run_of_next (M : Host.Core) (k : Nat) {s t : M.State} (h : M.step s = .next t) :
    Host.Core.run M (k + 1) s = Host.Core.run M k t := by
  simp only [Host.Core.run, h]

/-- A run that reaches a state answers a next state at its first step. -/
theorem run_next_inv (M : Host.Core) (k : Nat) {s u : M.State} (h : Host.Core.run M (k + 1) s = .next u) :
    ∃ t, M.step s = .next t ∧ Host.Core.run M k t = .next u := by
  cases hs : M.step s with
  | next t => exact ⟨t, rfl, (run_of_next M k hs).symm.trans h⟩
  | fault r => simp only [Host.Core.run, hs] at h; cases h
  | refused r => simp only [Host.Core.run, hs] at h; cases h

theorem reaches_refl (s : State) : Reaches 0 s s := rfl

theorem reaches_succ {k : Nat} {s t u : State} (h : step s = .next t) (h' : Reaches k t u) : Reaches (k + 1) s u :=
  (run_of_next Sys2Proof.core k (s := s) h).trans h'

theorem reaches_trans {j k : Nat} {s t u : State} (h : Reaches j s t) (h' : Reaches k t u) :
    Reaches (j + k) s u := by
  induction j generalizing s with
  | zero => cases h; rwa [Nat.zero_add]
  | succ j ih =>
    obtain ⟨s', hs, hr⟩ := run_next_inv Sys2Proof.core j (s := s) h
    rw [Nat.add_right_comm]
    exact reaches_succ hs (ih hr)

/-! ## Whole reads -/

/-- A read not yet begun whose first answer brings every byte goes on with the next bytes of the stream (R53). -/
theorem streamRead_at_once {s : State} {cut : Nat} {cuts : Answers Nat} {n : BitVec 64}
    {cont : List Byte → State → State} (hn : s.rxNeed = 0) (hc : s.rxCuts.pop = some (cut, cuts)) (h0 : n ≠ 0)
    (hl : (rxNext n.toNat s).length = n.toNat) (hcut : n.toNat ≤ cut) :
    streamRead n cont s = cont (rxNext n.toNat s)
      { s with rxNeed := 0, rxAcc := rxNext n.toNat s, rxPos := s.rxPos + n.toNat, rxCuts := cuts } := by
  have hpos : 0 < n.toNat := Nat.pos_of_ne_zero fun h => h0 (BitVec.eq_of_toNat_eq h)
  have ha : rxAnswer n.toNat { s with rxNeed := n, rxAcc := [] } = .data (rxNext n.toNat s) := by
    have hs : rxNext n.toNat { s with rxNeed := n, rxAcc := [] } = rxNext n.toNat s := by
      apply rxNext_congr <;> rfl
    rw [rxAnswer_of_pop (s := { s with rxNeed := n, rxAcc := [] }) hc (by omega), Nat.min_eq_right hcut, hs,
      if_neg (by intro h; rw [h] at hl; simp at hl; omega)]
  have hz : (takeData (rxNext n.toNat s) { s with rxNeed := n, rxAcc := [] }).rxNeed = 0 := by
    simp [hl]
  unfold streamRead
  simp only [beginRead_fresh hn, ha]
  rw [if_pos hz]
  simp [takeData, hl, Answers.rest_of_pop hc]

/-- A read of an exhausted stream raises `IoFailure` when the stream's end is answered (R51, R53). -/
theorem streamRead_at_end {s : State} {cut : Nat} {cuts : Answers Nat} {n : BitVec 64}
    {cont : List Byte → State → State} (hc : s.rxCuts.pop = some (cut, cuts)) (hcut : 1 ≤ cut)
    (he : rxNext 1 s = []) :
    (s.rxEnd = .eof →
      streamRead n cont s = errorEntry (.ioFailure .shortRead) { beginRead n s with rxCuts := cuts }) ∧
    (s.rxEnd = .error →
      streamRead n cont s = errorEntry (.ioFailure .streamError) { beginRead n s with rxCuts := cuts }) := by
  have hnil : ∀ m, rxNext m s = [] := fun m => by
    rcases Nat.eq_zero_or_pos m with rfl | h
    · rfl
    · exact (rxNext_eq_nil_iff h).mpr he
  have ha := rxAnswer_of_pop (max := (beginRead n s).rxNeed.toNat) (s := beginRead n s) (by simpa using hc) hcut
  rw [if_pos ((rxNext_congr (by simp) (by simp) (by simp) _).trans (hnil _)), beginRead_rxEnd] at ha
  constructor <;> intro h <;> rw [h] at ha <;> simp [streamRead, ha, Answers.rest_of_pop hc]

end Sys2Proof.Machine
end

