-- ==== Sys2Proof/Laws/Validate.lean ====
section
/-! SUPPORT. What the validator answers, one lemma per check, and what the classification functions compute. -/

namespace Sys2Proof.Machine

variable {f : Frame}

/-- `is_control` is the opcode's bit 3: opcodes 8 to 15 (R76). -/
theorem isControl_iff (op : BitVec 4) : isControl op = true ↔ 8 ≤ op.toNat := by
  revert op; decide

/-- The opcodes that are not reserved are the six defined ones (R77). -/
theorem isReservedOpcode_eq_false_iff (op : BitVec 4) :
    isReservedOpcode op = false ↔ op.toNat ∈ [0, 1, 2, 8, 9, 10] := by
  revert op; decide

/-- A violation is its kind with the kind's code (R171). -/
theorem violation_ne_ok (k : ViolationKind) : violation k ≠ .ok := by simp [violation]

/-- Check 2 passes: not a control frame, or final and at most 125 bytes long (R153). -/
abbrev ShapeOk (f : Frame) : Prop := ¬(isControl f.opcode = true ∧ (125 < f.length.toNat ∨ f.fin = false))

/-- Check 1 (R152). -/
theorem validate_unmasked (h : f.masked = false) : validate f = violation .unmasked := if_pos h

/-- Check 2 (R153). -/
theorem validate_shape (hm : f.masked = true) (h : ¬ShapeOk f) : validate f = violation .controlShape := by
  rw [validate, if_neg (by simp [hm]), if_pos (not_not.mp h)]

/-- Check 3 (R154). -/
theorem validate_reserved (hm : f.masked = true) (hs : ShapeOk f) (h : isReservedOpcode f.opcode = true) :
    validate f = violation .reservedOpcode := by
  rw [validate, if_neg (by simp [hm]), if_neg hs, if_pos h]

/-- Check 4 (R155). -/
theorem validate_rsv (hm : f.masked = true) (hs : ShapeOk f) (ho : isReservedOpcode f.opcode = false)
    (h : f.rsv ≠ 0) : validate f = violation .reservedBits := by
  rw [validate, if_neg (by simp [hm]), if_neg hs, if_neg (by simp [ho]), if_pos h]

/-- Checks 5 to 7, once the first four pass (R156, R157, R162). -/
theorem validate_rest (hm : f.masked = true) (hs : ShapeOk f) (ho : isReservedOpcode f.opcode = false)
    (hr : f.rsv = 0) :
    validate f =
      if f.opcode = 1 ∧ f.fin = true ∧ utf8Valid f.payload = false then violation .invalidText
      else if f.opcode = 8 then validateClose f
      else .ok := by
  rw [validate, if_neg (by simp [hm]), if_neg hs, if_neg (by simp [ho]), if_neg (by simpa using hr)]

/-- Check 6, length 1 (R160). -/
theorem validateClose_one (h : f.length = 1) : validateClose f = violation .closeLength1 := if_pos h

/-- Check 6, an empty close (R161). -/
theorem validateClose_empty (h : f.length = 0) : validateClose f = .ok := by
  rw [validateClose, if_neg (by rw [h]; decide), if_neg (by rw [h]; decide)]

/-- Check 6, a close with a code: the code before the reason (R158, R159). -/
theorem validateClose_code {c0 c1 : Byte} {reason : List Byte} (h : 2 ≤ f.length.toNat)
    (hp : f.payload = c0 :: c1 :: reason) :
    validateClose f =
      if closeCodeLegal (be16 c0 c1) = false then violation .invalidCloseCode
      else if utf8Valid reason = false then violation .invalidCloseReason
      else .ok := by
  have h1 : f.length ≠ 1 := by intro h1; rw [h1] at h; exact absurd h (by decide)
  rw [validateClose, if_neg h1, if_pos h, hp]
  rfl

/-- The code of every violation the validator reports is its kind's (R171). -/
theorem validate_code {k : ViolationKind} {c : BitVec 16} (h : validate f = .err k c) : c = k.code := by
  unfold validate validateClose violation at h
  repeat' split at h
  all_goals first | (cases h; rfl) | cases h

/-- A violation's code is 1002 or 1007 (R171). -/
theorem ViolationKind.code_cases (k : ViolationKind) : k.code = 1002 ∨ k.code = 1007 := by
  cases k <;> simp [ViolationKind.code]

end Sys2Proof.Machine
end

