-- ==== Sys2Proof/Tests/Slice0.lean ====
section
/-! SUPPORT. The model's own tests. Expected values come from spec/95_test_vectors.md (its row is named), or are cut by hand
from the encoding tables of 30_encoding.md. The second part gives, for each obligation with hypotheses, a state and operands
that meet them. -/

namespace Sys2Proof.Tests

open Sys2Proof Sys2Proof.Machine

/-! ## Helpers -/

/-- The key K1 of the vectors. -/
def key1 : Key := ⟨0x37, 0xfa, 0x21, 0x3d⟩

/-- The key K2 of the vectors. -/
def key2 : Key := ⟨1, 2, 3, 4⟩

/-- A masked frame with key K2 in the short form. -/
def ops (fin : Bool) (payload : List Byte) : FrameOps :=
  ⟨fin, 0, true, .short, BitVec.ofNat 64 payload.length, some key2, payload⟩

/-- An open connection about to read a frame; one byte stands for the upgrade response. -/
def opened (bytes : List Byte) (cuts : List Nat) : State :=
  { State.reset with
    conn := .opened, phase := .rxHdr, rxBytes := bytes, rxCuts := ⟨cuts, []⟩, txAnswers := ⟨[.done], []⟩
    txLog := [[0x48]] }

/-- An open connection with an instruction in the frame register set, in CHECK. -/
def checking (i : Instr) : State := { loadFrame i (opened [] []) with phase := .check }

/-- A peer that sends one unmasked ping over and over and cuts its bytes in twos for ever, read past byte 3: the next
byte is the ping's second one (R51). -/
def endless : State :=
  { opened [] [] with rxTail := .cycle 0x89 [0x00], rxPos := 3, rxCuts := ⟨[], [2]⟩, txAnswers := ⟨[], [.done]⟩ }

/-- Whether an outcome is a next state of which a test holds. -/
def nextIs (o : Host.Outcome State Fault Refusal) (test : State → Bool) : Bool :=
  match o with
  | .next t => test t
  | _ => false

/-- A reply was made. -/
def replies (bytes : List Byte) (t : State) : Bool :=
  t.phase == .reply && t.verdict == .ok && t.txBuf == bytes && t.status == 1000

/-- A violation was latched. -/
def rejects (k : ViolationKind) (code : BitVec 16) (t : State) : Bool :=
  t.phase == .clSend && t.conn == .closing && t.verdict == .err k code && t.status == code && t.txBuf == []

/-! ## WellFormed: one ill-formed term per check -/

theorem test_illFormed_lengthForm :
    (⟨true, 0, false, .short, 126, none, List.replicate 126 0⟩ : FrameOps).illFormed Params.normative
      = some .lengthForm := by decide

theorem test_illFormed_payloadLength :
    (⟨true, 0, false, .short, 2, none, [0]⟩ : FrameOps).illFormed Params.normative = some .payloadLength := by
  decide

theorem test_illFormed_maskingKey :
    (⟨true, 0, true, .short, 0, none, []⟩ : FrameOps).illFormed Params.normative = some .maskingKey := by decide

theorem test_illFormed_payloadTooLarge :
    (⟨true, 0, false, .short, 1, none, [0]⟩ : FrameOps).illFormed { Params.normative with maxPayload := 0 }
      = some .payloadTooLarge := by decide

theorem test_wellFormed : WellFormed Params.normative (.text (ops true [0x61])) := by decide

/-! ## Decoding: a word of every constructor, from 30_encoding.md R71, R72, R78 -/

theorem test_word_cont : decodeTableWord 16 0x0000 = some (.cont ⟨false, 0, false, .short, 0, none, []⟩) := by
  decide
theorem test_word_text :
    decodeTableWord 16 0x8181 = some (.text ⟨true, 0, true, .short, 1, some ⟨0, 0, 0, 0⟩, [0]⟩) := by
  decide
theorem test_word_binary : decodeTableWord 16 0xC202 = some (.binary ⟨true, 4, false, .short, 2, none, [0, 0]⟩) := by
  decide
theorem test_word_rsv3 : decodeTableWord 16 0x1300 = some (.rsv3 ⟨false, 1, false, .short, 0, none, []⟩) := by
  decide
theorem test_word_rsv4 : decodeTableWord 16 0x247E = some (.rsv4 ⟨false, 2, false, .ext16, 0, none, []⟩) := by
  decide +kernel
theorem test_word_rsv5 : decodeTableWord 16 0x8500 = some (.rsv5 ⟨true, 0, false, .short, 0, none, []⟩) := by
  decide
theorem test_word_rsv6 :
    decodeTableWord 16 0x46FF = some (.rsv6 ⟨false, 4, true, .ext64, 0, some ⟨0, 0, 0, 0⟩, []⟩) := by
  decide +kernel
theorem test_word_rsv7 : decodeTableWord 16 0xF700 = some (.rsv7 ⟨true, 7, false, .short, 0, none, []⟩) := by
  decide
theorem test_word_close :
    decodeTableWord 16 0x8880 = some (.close ⟨true, 0, true, .short, 0, some ⟨0, 0, 0, 0⟩, []⟩) := by
  decide
theorem test_word_ping : decodeTableWord 16 0x8901 = some (.ping ⟨true, 0, false, .short, 1, none, [0]⟩) := by
  decide
theorem test_word_pong : decodeTableWord 16 0x0A7F = some (.pong ⟨false, 0, false, .ext64, 0, none, []⟩) := by
  decide +kernel
theorem test_word_rsv11 : decodeTableWord 16 0x8B00 = some (.rsv11 ⟨true, 0, false, .short, 0, none, []⟩) := by
  decide
theorem test_word_rsv12 : decodeTableWord 16 0x3C00 = some (.rsv12 ⟨false, 3, false, .short, 0, none, []⟩) := by
  decide
theorem test_word_rsv13 : decodeTableWord 16 0x5D00 = some (.rsv13 ⟨false, 5, false, .short, 0, none, []⟩) := by
  decide
theorem test_word_rsv14 : decodeTableWord 16 0x6E00 = some (.rsv14 ⟨false, 6, false, .short, 0, none, []⟩) := by
  decide
theorem test_word_rsv15 : decodeTableWord 16 0x0F00 = some (.rsv15 ⟨false, 0, false, .short, 0, none, []⟩) := by
  decide

/-- A table row has 16 bits, no other number. -/
theorem test_word_length : decodeTableWord 8 0x81 = none := by decide

/-- D1. -/
theorem test_decode_hello :
    decodeBytes Params.normative [0x81, 0x85, 0x37, 0xfa, 0x21, 0x3d, 0x7f, 0x9f, 0x4d, 0x51, 0x58] =
      .complete ⟨true, 0, 1, true, 5, [0x48, 0x65, 0x6c, 0x6c, 0x6f]⟩ 11 := by decide

/-- D5. -/
theorem test_decode_needMore :
    decodeBytes Params.normative [0x81, 0x85, 0x37, 0xfa, 0x21, 0x3d, 0x7f, 0x9f, 0x4d, 0x51] = .needMore := by
  decide

/-- D9: a length that is not minimal. -/
theorem test_decode_ext16 :
    decodeBytes Params.normative [0x81, 0xfe, 0x00, 0x05, 1, 2, 3, 4, 0x69, 0x67, 0x6f, 0x68, 0x6e] =
      .complete ⟨true, 0, 1, true, 5, [0x68, 0x65, 0x6c, 0x6c, 0x6f]⟩ 13 := by decide

/-- D10. -/
theorem test_decode_ext64 :
    decodeBytes Params.normative
        [0x81, 0xff, 0, 0, 0, 0, 0, 0, 0, 5, 1, 2, 3, 4, 0x69, 0x67, 0x6f, 0x68, 0x6e] =
      .complete ⟨true, 0, 1, true, 5, [0x68, 0x65, 0x6c, 0x6c, 0x6f]⟩ 19 := by decide

/-- D16: the next frame's byte is not consumed. -/
theorem test_decode_trailing :
    decodeBytes Params.normative [0x89, 0x80, 1, 2, 3, 4, 0x81] = .complete ⟨true, 0, 9, true, 0, []⟩ 6 := by
  decide

/-- D18: bit 63 of the length is kept. -/
theorem test_decode_tooLarge :
    decodeBytes { Params.normative with maxPayload := 0x100000 } [0x82, 0xff, 0x80, 0, 0, 0, 0, 0, 0, 0, 1, 2, 3, 4] =
      .tooLarge 0x8000000000000000 14 := by decide

/-- D8 under `Unconditional`. -/
theorem test_decode_unconditional :
    decodeBytes { Params.normative with maskKeyPolicy := .unconditional }
      [0x81, 0x05, 0x68, 0x65, 0x6c, 0x6c, 0x6f] = .needMore := by decide

/-- Section 2.2, "Hello" under K1. -/
theorem test_mask : applyMask [0x48, 0x65, 0x6c, 0x6c, 0x6f] key1 = [0x7f, 0x9f, 0x4d, 0x51, 0x58] := by decide

/-- The bytes of P1's ping frame. -/
theorem test_encodeInstr :
    encodeInstr (.ping ⟨true, 0, true, .short, 4, some key1, [0x70, 0x69, 0x6e, 0x67]⟩) =
      [0x89, 0x84, 0x37, 0xfa, 0x21, 0x3d, 0x47, 0x93, 0x4f, 0x5a] := by decide

/-! ## The frame encoder (section 2.3) -/

theorem test_encodeFrame_text :
    encodeFrame ⟨true, 7, 1, true, 5, [0x68, 0x65, 0x6c, 0x6c, 0x6f]⟩ = [0x81, 0x05, 0x68, 0x65, 0x6c, 0x6c, 0x6f] := by
  decide

theorem test_encodeFrame_empty : encodeFrame ⟨false, 0, 0, false, 0, []⟩ = [0x00, 0x00] := by decide

theorem test_frameHeader_126 : frameHeader true 2 126 = [0x82, 0x7e, 0x00, 0x7e] := by decide
theorem test_frameHeader_65535 : frameHeader true 2 65535 = [0x82, 0x7e, 0xff, 0xff] := by decide
theorem test_frameHeader_65536 : frameHeader true 2 65536 = [0x82, 0x7f, 0, 0, 0, 0, 0, 1, 0, 0] := by decide

/-! ## The validator's functions (sections 2.4.2, 2.4.3) -/

theorem test_closeCodes_legal :
    ([1000, 1001, 1002, 1003, 1007, 1008, 1009, 1010, 1011, 3000, 3001, 4999].all closeCodeLegal) = true := by
  decide
theorem test_closeCodes_illegal :
    ([0, 999, 1004, 1005, 1006, 1012, 1015, 2999, 5000, 65535].any closeCodeLegal) = false := by decide

theorem test_utf8_valid :
    ([[], [0x41, 0xe2, 0x82, 0xac, 0x42], [0xc2, 0x80], [0xdf, 0xbf], [0xe0, 0xa0, 0x80], [0xef, 0xbf, 0xbf],
      [0xed, 0x9f, 0xbf], [0xee, 0x80, 0x80], [0xf0, 0x90, 0x80, 0x80], [0xf4, 0x8f, 0xbf, 0xbf]].all utf8Valid) = true := by
  decide
theorem test_utf8_invalid :
    ([[0xff, 0xfe], [0xf5, 0x80, 0x80, 0x80], [0x80], [0xc0, 0x80], [0xc1, 0xbf], [0xe0, 0x9f, 0xbf],
      [0xf0, 0x8f, 0xbf, 0xbf], [0xed, 0xa0, 0x80], [0xf4, 0x90, 0x80, 0x80], [0xe2, 0x82], [0x41, 0xc3]].any utf8Valid)
      = false := by decide

/-! ## The handshake codec (section 2.6) -/

/-- The digest of "abc". -/
theorem test_sha1 :
    sha1 [0x61, 0x62, 0x63] =
      [0xa9, 0x99, 0x3e, 0x36, 0x47, 0x06, 0x81, 0x6a, 0xba, 0x3e] ++
      [0x25, 0x71, 0x78, 0x50, 0xc2, 0x6c, 0x9c, 0xd0, 0xd8, 0x9d] := by decide +kernel

/-- "fooba". -/
theorem test_base64 :
    base64 [0x66, 0x6f, 0x6f, 0x62, 0x61] = [0x5a, 0x6d, 0x39, 0x76, 0x59, 0x6d, 0x45, 0x3d] := by decide

/-- The accept value of KEY0, `s3pPLMBiTxaQ9kYGzzhZRbK+xOo=`. -/
theorem test_acceptHash :
    acceptHash Params.normative Config.sampleKey =
      [0x73, 0x33, 0x70, 0x50, 0x4c, 0x4d, 0x42, 0x69, 0x54, 0x78, 0x61, 0x51, 0x39, 0x6b] ++
      [0x59, 0x47, 0x7a, 0x7a, 0x68, 0x5a, 0x52, 0x62, 0x4b, 0x2b, 0x78, 0x4f, 0x6f, 0x3d] := by decide +kernel

/-! ## The instructions (sections 2.4.1 and 2.5) -/

/-- S2. -/
theorem test_cont_echo :
    nextIs (step (checking (.cont (ops true [0x61, 0x62, 0x61])))) (replies [0x80, 0x03, 0x61, 0x62, 0x61]) := by
  decide
/-- V16. -/
theorem test_cont_unchecked :
    nextIs (step (checking (.cont (ops true [0xff, 0xfe])))) (replies [0x80, 0x02, 0xff, 0xfe]) := by decide
/-- V14. -/
theorem test_text_invalid :
    nextIs (step (checking (.text (ops true [0xff, 0xfe])))) (rejects .invalidText 1007) := by decide
/-- V15. -/
theorem test_text_nonfinal :
    nextIs (step (checking (.text (ops false [0xff, 0xfe])))) (replies [0x01, 0x02, 0xff, 0xfe]) := by decide
/-- S3. -/
theorem test_binary_echo :
    nextIs (step (checking (.binary (ops true [0, 0])))) (replies [0x82, 0x02, 0x00, 0x00]) := by decide
/-- V12, the binary frame. -/
theorem test_binary_reservedBits :
    nextIs (step (checking (.binary { ops true [0] with rsv := 7 }))) (rejects .reservedBits 1002) := by
  decide
/-- V23, V24: the codes 3001 and 5000. -/
theorem test_close_codes :
    nextIs (step (checking (.close (ops true [0x0b, 0xb9]))))
        (fun t => t.status == 3001 && t.verdict == .ok && t.conn == .closing && t.phase == .clSend) &&
      nextIs (step (checking (.close (ops true [0x13, 0x88])))) (rejects .invalidCloseCode 1002) := by
  decide
/-- V25, V27. -/
theorem test_close_reason :
    nextIs (step (checking (.close (ops true [0x03, 0xe8, 0xc3])))) (rejects .invalidCloseReason 1007) &&
      nextIs (step (checking (.close (ops true [0x13, 0x88, 0xff])))) (rejects .invalidCloseCode 1002) := by
  decide
/-- S4. -/
theorem test_ping_pong :
    nextIs (step (checking (.ping (ops true [0x70, 0x69, 0x6e, 0x67]))))
      (fun t => replies [0x8a, 0x04, 0x70, 0x69, 0x6e, 0x67] t && t.fOpcode == 10) := by decide
/-- V5. -/
theorem test_ping_long :
    nextIs (step (checking (.ping { ops true [] with len := 126, form := .ext16 }))) (rejects .controlShape 1002) := by
  decide
/-- S5, the pong. -/
theorem test_pong_dropped :
    nextIs (step (checking (.pong (ops true [0x78]))))
      (fun t => t.phase == .rxHdr && t.conn == .opened && t.txBuf == []) := by decide
/-- V11: opcodes 3, 5 and 7, and by R154 4 and 6. -/
theorem test_reserved_data :
    ([Instr.rsv3, .rsv4, .rsv5, .rsv6, .rsv7].all fun c =>
      nextIs (step (checking (c (ops true [])))) (rejects .reservedOpcode 1002)) := by decide
/-- V8: opcode 11, and by R154 12 to 15. -/
theorem test_reserved_control :
    ([Instr.rsv11, .rsv12, .rsv13, .rsv14, .rsv15].all fun c =>
      nextIs (step (checking (c (ops true [])))) (rejects .reservedOpcode 1002)) := by decide
/-- V9: a reserved control opcode that is not final. -/
theorem test_reserved_control_nonfinal :
    nextIs (step (checking (.rsv11 (ops false [])))) (rejects .controlShape 1002) := by decide
/-- V3. -/
theorem test_unmasked_first :
    nextIs (step (checking (.rsv5 ⟨true, 7, false, .short, 0, none, []⟩))) (rejects .unmasked 1002) := by
  decide

/-! ## The phases -/

/-- R101's example, `81 85`. -/
theorem test_header :
    nextIs (step (opened [0x81, 0x85] [2]))
      (fun t => t.phase == .rxExt && t.fFin && t.fRsv == 0 && t.fOpcode == 1 && t.fMask && t.fLen7 == 5) := by
  decide
/-- R51's unbounded sequence: bytes 3 and 4 of `89 00 89 00 ...`, and the answers of a stream that never runs out. -/
theorem test_header_endless :
    nextIs (step endless)
      (fun t => t.phase == .rxExt && t.fOpcode == 0 && t.fMask && t.fLen7 == 9 && t.rxPos == 5 &&
        t.rxCuts == ⟨[], [2]⟩) := by
  decide
/-- A base header in two cuts: the read goes on (R53). -/
theorem test_header_cut :
    nextIs (step (opened [0x81, 0x85] [1, 1]))
      (fun t => t.phase == .rxHdr && t.rxNeed == 1 && t.rxAcc == [0x81] && t.rxPos == 1) := by decide
/-- R104's example, 65536 and not 0. -/
theorem test_ext64 :
    nextIs (step { opened [0, 0, 0, 0, 0, 1, 0, 0] [8] with phase := .rxExt, fLen7 := 127 })
      (fun t => t.phase == .rxKey && t.fLen == 65536) := by decide
/-- S16: a length above MAX_PAYLOAD. The CLOSE is a transaction of its own (R8). -/
theorem test_tooLarge :
    nextIs (step { opened [] [] with
        phase := .rxPay, fLen := 1001, params := { Params.normative with maxPayload := 1000 } })
      (fun t => t.phase == .rxPay && t.err == .resourceExhausted && !t.streamClosed &&
        nextIs (step t) (fun u => u.phase == .done && u.conn == .closed && u.streamClosed)) := by
  decide
/-- S17: no key. -/
theorem test_handshake_fails :
    nextIs (step { State.reset with keyPresent := false })
      (fun t => t.err == .handshakeFailure && t.txLog == [] &&
        nextIs (step t) (fun u => u.phase == .done && u.conn == .closed && u.streamClosed)) := by
  decide
/-- R206's example, 1002. -/
theorem test_close_frame :
    nextIs (step { opened [] [] with conn := .closing, phase := .clSend, status := 1002 })
      (fun t => t.phase == .clClose && t.closeSent && t.txLog == [[0x48], [0x88, 0x02, 0x03, 0xea]]) := by
  decide
/-- S12: the write of an echo fails. -/
theorem test_write_fails :
    nextIs (step { opened [] [] with phase := .reply, txBuf := [0x81, 0x00], txAnswers := ⟨[.error 1], []⟩ })
      (fun t => t.err == .ioFailure && !t.closeSent && t.txLog == [[0x48]] && t.txPartial == [0x81] &&
        nextIs (step t) (fun u => u.phase == .done && u.streamClosed)) := by
  decide

/-! ## Witnesses: states and operands that meet the hypotheses of each obligation -/

/-- "hello" as a text frame in CHECK. -/
def helloCheck : State := checking (.text (ops true [0x68, 0x65, 0x6c, 0x6c, 0x6f]))

/-- A reply about to be written. -/
def helloReply : State :=
  { helloCheck with phase := .reply, txBuf := encodeFrame (frameInFlight helloCheck) }

/-- A violation's close frame about to be written. -/
def closeSend : State := { opened [] [] with conn := .closing, phase := .clSend }

/-- The stream about to be closed. -/
def closeClose : State := { opened [] [] with conn := .closing, phase := .clClose, closeSent := true }

/-- A frame whose bytes are on the stream, one byte an answer: P1's ping. -/
def pingBytes : State := opened [0x89, 0x84, 0x37, 0xfa, 0x21, 0x3d, 0x47, 0x93, 0x4f, 0x5a] (List.replicate 10 1)

/-- The invariant of a concrete state, but for its two fields that no computation decides. -/
theorem inv_of_decided {s : State}
    (h : s.phase.conn = s.conn ∧ (s.rxTail = .none → s.rxPos ≤ s.rxBytes.length) ∧ closeCodeLegal s.status = true ∧
      (s.conn = .handshaking ∨ s.conn = .opened → s.status = 1000) ∧ s.verdict = .ok ∧
      (s.streamClosed = true ↔ s.phase = .done) ∧
      (s.closeSent = true ↔ s.phase = .clClose ∨ s.phase = .done ∧ s.err = .none) ∧ s.err = .none ∧
      (s.phase.isWriting = false → s.txBuf = []))
    (h' : (s.phase = .hsSend ∨ s.phase = .reply → s.txBuf ≠ []) ∧
      (s.phase = .reply → s.txBuf = encodeFrame (frameInFlight s)) ∧ (s.conn = .handshaking → s.txLog = []) ∧
      (s.conn = .opened ∨ s.conn = .closing → s.txLog ≠ []) ∧ s.txLog.tail = [] ∧ s.rxNeed = 0 ∧
      (s.phase = .rxKey ∨ s.phase = .rxPay ∨ s.phase = .check → (LenForm.ofLen7 s.fLen7).holds s.fLen = true) ∧
      (s.phase = .check ∨ s.phase = .reply →
        s.fPayload.length = s.fLen.toNat ∧ s.fLen.toNat ≤ s.params.maxPayload.toNat)) : Inv s := by
  obtain ⟨a1, a2, a3, a4, a5, a6, a7, a8, a9⟩ := h
  obtain ⟨b1, b2, b3, b4, b5, b6, b7, b8⟩ := h'
  exact
    { phase_in_state := a1
      consumed_in_bounds := a2
      status_legal := a3
      status_default := a4
      verdict_code := fun k c h => by rw [a5] at h; cases h
      status_of_violation := fun _ k c h => by rw [a5] at h; cases h
      reply_verdict := fun _ => a5
      stream_closed_iff := a6
      close_sent_iff := a7
      close_without_error := fun _ => a8
      error_phase := by rw [a8]; exact ⟨nofun, nofun, nofun⟩
      tx_buf_empty := a9
      tx_buf_after_error := fun h => absurd a8 h
      tx_buf_written := fun h _ => b1 h
      reply_frame := fun h _ => b2 h
      nothing_before_response := b3
      response_written := b4
      frames_after_response := fun w h => by rw [b5] at h; cases h
      read_progress := fun _ h => absurd b6 h
      payload_read_fits := fun _ _ h => absurd b6 h
      length_form := b7
      frame_whole := b8 }

theorem inv_helloCheck : Inv helloCheck := inv_of_decided (by decide) (by decide)
theorem inv_helloReply : Inv helloReply := inv_of_decided (by decide) (by decide)
theorem inv_closeSend : Inv closeSend := inv_of_decided (by decide) (by decide)
theorem inv_closeClose : Inv closeClose := inv_of_decided (by decide) (by decide)
theorem inv_pingBytes : Inv pingBytes := inv_of_decided (by decide) (by decide)
theorem inv_reset : Inv State.reset := inv_of_decided (by decide) (by decide)
theorem inv_pongCheck : Inv (checking (.pong (ops true []))) := inv_of_decided (by decide) (by decide)

/-- The failed handshake with its CLOSE to make. -/
theorem inv_handshakeFailed : Inv { State.reset with err := .handshakeFailure } :=
  { inv_reset with
    close_sent_iff := by decide
    close_without_error := nofun
    error_phase := by decide
    tx_buf_after_error := fun _ => rfl
    tx_buf_written := nofun
    reply_frame := nofun
    read_progress := nofun
    payload_read_fits := nofun }

theorem witness_StartLeavesTheResetState :
    2 ≤ ([0x89, 0x00] : List Byte).length ∧ RxTail.cycle 0x89 [0x00] ≠ .none ∧ RxTail.free 0 ≠ .none := by decide

theorem witness_StepKeepsTheInvariant : ∃ t, Inv pingBytes ∧ step pingBytes = .next t := ⟨_, inv_pingBytes, rfl⟩

theorem witness_StepAnswersExceptOutsideState :
    State.reset.phase.conn = State.reset.conn ∧
      ({ State.reset with phase := .done } : State).phase.conn ≠ ({ State.reset with phase := .done } : State).conn := by
  decide

/-- Two of the five transitions: the failed handshake, at its CLOSE, and the end of closing. -/
theorem witness_StateTransitionsAreTheFive :
    (∃ t, Inv closeClose ∧ step closeClose = .next t ∧ t.conn ≠ closeClose.conn) ∧
      ∃ t, Inv { State.reset with err := .handshakeFailure } ∧
        step { State.reset with err := .handshakeFailure } = .next t ∧ t.conn ≠ .handshaking :=
  ⟨⟨_, inv_closeClose, rfl, by decide⟩, ⟨_, inv_handshakeFailed, rfl, by decide⟩⟩

theorem witness_ClosedIsTerminal :
    ({ State.reset with conn := .closed, phase := .done } : State).conn = .closed ∧
      ({ State.reset with conn := .closed, phase := .done } : State).phase = .done := ⟨rfl, rfl⟩

theorem witness_FixedInputsAndFlagsThatStay :
    ∃ s t : State, step s = .next t ∧ s.err ≠ .none ∧ s.closeSent = true ∧ s.streamClosed = true :=
  ⟨{ State.reset with conn := .closed, phase := .done, err := .ioFailure, closeSent := true, streamClosed := true },
    _, rfl, by decide, rfl, rfl⟩

theorem witness_StreamsOnlyGoForward : ∃ t, Inv helloReply ∧ step helloReply = .next t := ⟨_, inv_helloReply, rfl⟩

theorem witness_WriteCompletesBeforeNextRead :
    (∃ t, Inv pingBytes ∧ step pingBytes = .next t ∧ t.rxNeed ≠ pingBytes.rxNeed ∧ t.rxCuts ≠ pingBytes.rxCuts ∧
      t.rxPos ≠ pingBytes.rxPos) ∧
    (∃ t, Inv helloReply ∧ step helloReply = .next t ∧ helloReply.phase.isReading = false ∧ t.phase.isReading = true ∧
      t.txLog ≠ helloReply.txLog) ∧
    ∃ t, Inv (checking (.pong (ops true []))) ∧ step (checking (.pong (ops true []))) = .next t ∧
      (checking (.pong (ops true []))).phase.isReading = false ∧ t.phase.isReading = true :=
  ⟨⟨_, inv_pingBytes, rfl, by decide⟩, ⟨_, inv_helloReply, rfl, by decide⟩, ⟨_, inv_pongCheck, rfl, by decide⟩⟩

theorem witness_StatusIsWrittenOnlyInCheck :
    ∃ t, step (checking (.rsv3 (ops true []))) = .next t ∧ t.status ≠ (checking (.rsv3 (ops true []))).status :=
  ⟨_, rfl, by decide⟩

theorem witness_FrameRegisters_header :
    ∃ t, step (opened [0xf1, 0x85] [2]) = .next t ∧ t.fFin ≠ false ∧ t.fRsv ≠ 0 ∧ t.fMask ≠ false ∧ t.fLen7 ≠ 0 ∧
      t.fOpcode ≠ 0 := ⟨_, rfl, by decide⟩
theorem witness_FrameRegisters_length :
    ∃ t, step { opened [] [] with phase := .rxExt, fLen7 := 5 } = .next t ∧ t.fLen ≠ 0 := ⟨_, rfl, by decide⟩
theorem witness_FrameRegisters_key :
    ∃ t, step { opened [1, 2, 3, 4] [4] with phase := .rxKey, fMask := true } = .next t ∧ t.fKey ≠ ⟨0, 0, 0, 0⟩ :=
  ⟨_, rfl, by decide⟩
theorem witness_FrameRegisters_payload :
    ∃ t, step { opened [1] [1] with phase := .rxPay, fLen := 1 } = .next t ∧ t.fPayload ≠ [] := ⟨_, rfl, by decide⟩
theorem witness_FrameRegisters_check :
    (∃ t, step (checking (.ping (ops true []))) = .next t ∧ t.fOpcode ≠ 9) ∧
      ∃ t, step (checking (.rsv3 (ops true []))) = .next t ∧ t.verdict ≠ .ok :=
  ⟨⟨_, rfl, by decide⟩, ⟨_, rfl, by decide⟩⟩

theorem witness_ServerFramesAreUnmasked :
    ∃ t w, Inv helloReply ∧ step helloReply = .next t ∧ helloReply.conn ≠ .handshaking ∧
      t.txLog = helloReply.txLog ++ [w] := ⟨_, _, inv_helloReply, rfl, by decide, rfl⟩

theorem witness_StepRunsTheDecodedInstruction :
    AtCheck helloCheck ∧ WellFormed helloCheck.params (.ping (ops true [])) := ⟨⟨rfl, rfl, rfl⟩, by decide⟩

theorem witness_TableWordRunsAsTheNextStep : ∃ i, decodeTableWord 16 0x0F80 = some i := ⟨_, rfl⟩

theorem witness_CheckedInstructionIsWellFormed : Inv helloCheck ∧ helloCheck.phase = .check := ⟨inv_helloCheck, rfl⟩

/-- Each length form at a boundary of its range. -/
theorem witness_DecodeOfEncodedInstruction :
    WellFormed Params.normative (.text ⟨true, 7, false, .short, 125, none, List.replicate 125 0⟩) ∧
      WellFormed Params.normative (.pong ⟨false, 0, true, .ext16, 0, some key1, []⟩) ∧
      WellFormed Params.normative (.rsv15 ⟨false, 0, false, .ext64, 126, none, List.replicate 126 1⟩) := by
  decide +kernel

theorem witness_EncodeOfDecodedBytes :
    ∃ i n, decode Params.normative [0x81, 0x81, 1, 2, 3, 4, 0x60, 0x00] = .complete i n := ⟨_, _, rfl⟩

/-- D19 and D20: the length at `MAX_PAYLOAD` and one above. -/
theorem witness_DecodeBytesIsPrefixStable :
    (∃ f n, decodeBytes { Params.normative with maxPayload := 0 } [0x81, 0x80, 1, 2, 3, 4] = .complete f n) ∧
      ∃ len n, decodeBytes { Params.normative with maxPayload := 0 } [0x81, 0x81, 1, 2, 3, 4, 0x60] = .tooLarge len n :=
  ⟨⟨_, _, rfl⟩, ⟨_, _, rfl⟩⟩

theorem witness_EncodedFrameDecodesBack :
    (∃ (p : Params) (f : Frame), p.maskKeyPolicy = .conditional ∧ f.rsv = 0 ∧ f.payload.length = f.length.toNat ∧
      f.length.toNat ≤ p.maxPayload.toNat) ∧
      ∃ p : Params, p.maskKeyPolicy = .unconditional ∧ 5 ≤ p.maxPayload.toNat :=
  ⟨⟨Params.normative, ⟨true, 0, 1, true, 2, [0x68, 0x69]⟩, by decide⟩,
    ⟨{ Params.normative with maskKeyPolicy := .unconditional, maxPayload := 5 }, by decide⟩⟩

theorem witness_MaskXorsEachByteWithItsLane : 4 < ([1, 2, 3, 4, 5] : List Byte).length := by decide

/-- The boundaries of the encoder's three forms. -/
theorem witness_EncoderWritesTheMinimalUnmaskedForm :
    (∃ f : Frame, f.payload.length = 125) ∧ (∃ f : Frame, f.payload.length = 126) ∧
      (∃ f : Frame, f.payload.length = 65535) ∧ ∃ f : Frame, f.payload.length = 65536 :=
  ⟨⟨⟨true, 0, 1, false, 0, List.replicate 125 0⟩, List.length_replicate⟩,
    ⟨⟨true, 0, 1, false, 0, List.replicate 126 0⟩, List.length_replicate⟩,
    ⟨⟨true, 0, 1, false, 0, List.replicate 65535 0⟩, List.length_replicate⟩,
    ⟨⟨true, 0, 1, false, 0, List.replicate 65536 0⟩, List.length_replicate⟩⟩

theorem witness_BaseHeaderIsCutIntoItsFields :
    let s : State := opened [0x81, 0x85, 0x00] [2, 1]
    let mid : State := { opened [0x81] [1] with rxEnd := .eof, rxPos := 1, rxNeed := 1, rxAcc := [0x81] }
    let errs : State := { opened [] [1] with rxEnd := .error }
    (AtFrameStart s ∧ rxNext 2 s = [0x81, 0x85] ∧ s.rxCuts.pop = some (2, ⟨[1], []⟩)) ∧
    (AtFrameStart { endless with rxPos := 0 } ∧ rxNext 2 { endless with rxPos := 0 } = [0x89, 0x00] ∧
      endless.rxCuts.pop = some (2, ⟨[], [2]⟩)) ∧
    (mid.conn = .opened ∧ mid.phase = .rxHdr ∧ mid.err = .none ∧ rxNext 1 mid = [] ∧ mid.rxEnd = .eof ∧
      mid.rxCuts.pop = some (1, ⟨[], []⟩)) ∧
    (rxNext 1 errs = [] ∧ errs.rxCuts.pop = some (1, ⟨[], []⟩) ∧ errs.rxEnd = .error) :=
  ⟨⟨⟨rfl, rfl, rfl, rfl⟩, rfl, rfl⟩, ⟨⟨rfl, rfl, rfl, rfl⟩, rfl, rfl⟩, ⟨rfl, rfl, rfl, rfl, rfl, rfl⟩, ⟨rfl, rfl, rfl⟩⟩

theorem witness_ShortLengthReadsNoByte :
    ({ opened [] [] with phase := .rxExt, fLen7 := 125 } : State).fLen7.toNat ≤ 125 ∧
      ({ opened [] [] with phase := .rxExt, fLen7 := 125 } : State).conn = .opened ∧
      ({ opened [] [] with phase := .rxExt, fLen7 := 125 } : State).err = .none := by decide

theorem witness_Ext16LengthIsTheTwoBytes :
    let s : State := { opened [0xff, 0xff] [2] with phase := .rxExt, fLen7 := 126 }
    let ended : State := { opened [] [1] with phase := .rxExt, fLen7 := 126, rxEnd := .eof }
    (s.conn = .opened ∧ s.phase = .rxExt ∧ s.err = .none ∧ s.fLen7 = 126 ∧ s.rxCuts.pop = some (2, ⟨[], []⟩) ∧
      s.rxNeed = 0 ∧ rxNext 2 s = [0xff, 0xff]) ∧
    (ended.fLen7 = 126 ∧ ended.rxCuts.pop = some (1, ⟨[], []⟩) ∧ rxNext 1 ended = [] ∧ ended.rxEnd = .eof) := by decide

theorem witness_Ext64LengthIsTheEightBytes :
    let s : State := { opened [0x80, 0, 0, 0, 0, 0, 0, 0] [8] with phase := .rxExt, fLen7 := 127 }
    let ended : State := { opened [] [1] with phase := .rxExt, fLen7 := 127, rxEnd := .error }
    (s.conn = .opened ∧ s.phase = .rxExt ∧ s.err = .none ∧ s.fLen7 = 127 ∧ s.rxCuts.pop = some (8, ⟨[], []⟩) ∧
      s.rxNeed = 0 ∧ rxNext 8 s = [0x80, 0, 0, 0, 0, 0, 0, 0]) ∧
    (ended.fLen7 = 127 ∧ ended.rxCuts.pop = some (1, ⟨[], []⟩) ∧ rxNext 1 ended = [] ∧ ended.rxEnd = .error) := by decide

theorem witness_KeyIsReadExactlyWhenOnTheWire :
    let s : State := { opened [1, 2, 3, 4] [4] with phase := .rxKey }
    let t : State := { s with params := { Params.normative with maskKeyPolicy := .unconditional } }
    let ended : State := { opened [9] [1] with phase := .rxKey, fMask := true, rxEnd := .eof, rxPos := 1 }
    (s.conn = .opened ∧ s.phase = .rxKey ∧ s.err = .none ∧ s.params.maskKeyPolicy = .conditional ∧ s.fMask = false) ∧
    (t.params.maskKeyPolicy = .unconditional ∧ t.rxNeed = 0 ∧ t.rxCuts.pop = some (4, ⟨[], []⟩) ∧
      rxNext 4 t = [1, 2, 3, 4]) ∧
    (ended.fMask = true ∧ ended.rxCuts.pop = some (1, ⟨[], []⟩) ∧ rxNext 1 ended = [] ∧ ended.rxEnd = .eof) := by decide

/-- One byte above `MAX_PAYLOAD`. -/
theorem witness_OversizePayloadIsNotRead :
    let s : State := { opened [] [] with phase := .rxPay, fLen := 1, params := { Params.normative with maxPayload := 0 } }
    s.conn = .opened ∧ s.phase = .rxPay ∧ s.err = .none ∧ s.params.maxPayload.toNat < s.fLen.toNat ∧
      s.streamClosed = false ∧ s.closeAnswers = true := by decide

/-- Lengths 0 and `MAX_PAYLOAD`, and a stream that has ended. -/
theorem witness_PayloadIsReadWhole :
    let empty : State := { opened [] [] with phase := .rxPay, params := { Params.normative with maxPayload := 0 } }
    let s : State := { opened [9] [1] with phase := .rxPay, fLen := 1, params := { Params.normative with maxPayload := 1 } }
    let ended : State := { opened [] [1] with phase := .rxPay, fLen := 1, rxEnd := .eof }
    (empty.fLen = 0 ∧ empty.fLen.toNat ≤ empty.params.maxPayload.toNat) ∧
    (s.conn = .opened ∧ s.err = .none ∧ s.fLen.toNat ≤ s.params.maxPayload.toNat ∧
      s.rxCuts.pop = some (1, ⟨[], []⟩) ∧ s.fLen ≠ 0 ∧ s.rxNeed = 0 ∧ (rxNext s.fLen.toNat s).length = s.fLen.toNat) ∧
    (rxNext 1 ended = [] ∧ ended.rxEnd = .eof ∧ ended.fLen ≠ 0 ∧ ended.rxCuts.pop = some (1, ⟨[], []⟩)) := by decide

/-- Ten answers for ten bytes; and an endless stream with answers that never run out. -/
theorem witness_DecoderPhasesFollowDecodeBytes :
    (AtFrameStart pingBytes ∧ (∃ i, decode pingBytes.params (rxNext 10 pingBytes) = .complete i 10) ∧
      Brings 10 pingBytes.rxCuts) ∧
    (AtFrameStart { endless with rxPos := 0 } ∧
      (∃ i, decode Params.normative (rxNext 7 { endless with rxPos := 0 }) = .complete i 2) ∧ Brings 2 endless.rxCuts) :=
  ⟨⟨⟨rfl, rfl, rfl, rfl⟩, ⟨_, rfl⟩, .inl (by decide)⟩,
    ⟨⟨rfl, rfl, rfl, rfl⟩, ⟨_, rfl⟩, .inr ⟨2, by decide, by decide⟩⟩⟩

/-- A length one above `MAX_PAYLOAD`, the header in six answers. -/
theorem witness_TooLargeLengthEndsTheConnection :
    let s : State := { opened [0x81, 0x81, 1, 2, 3, 4, 0x60] (List.replicate 6 1) with
      params := { Params.normative with maxPayload := 0 } }
    AtFrameStart s ∧ s.streamClosed = false ∧ s.closeAnswers = true ∧
      decode s.params (rxNext 6 s) = .tooLarge 1 6 ∧ Brings 6 s.rxCuts :=
  ⟨⟨rfl, rfl, rfl, rfl⟩, rfl, rfl, rfl, .inl (by decide)⟩

theorem witness_CutShortFrameFailsOrWaits :
    let s : State := { opened [0x81] [1, 1] with rxEnd := .eof }
    (AtFrameStart s ∧ s.rxTail = .none ∧ decode s.params (rxRest s) = .needMore ∧ s.streamClosed = false ∧
      s.closeAnswers = true ∧ s.rxEnd ≠ .never ∧ Brings ((rxRest s).length + 1) s.rxCuts) ∧
    (AtFrameStart (opened [0x81] []) ∧ decode Params.normative (rxRest (opened [0x81] [])) = .needMore ∧
      (opened [0x81] []).rxEnd = .never ∧ (opened [0x81] []).rxTail = .none) :=
  ⟨⟨⟨rfl, rfl, rfl, rfl⟩, rfl, rfl, rfl, rfl, by decide, .inl (by decide)⟩, ⟨rfl, rfl, rfl, rfl⟩, rfl, rfl, rfl⟩

theorem witness_CutsOfTheStreamDoNotMatter :
    AtFrameStart pingBytes ∧ (∃ i, decode pingBytes.params (rxNext 10 pingBytes) = .complete i 10) ∧
      Brings 10 ⟨List.replicate 10 1, []⟩ ∧ Brings 10 ⟨0 :: List.replicate 9 4, [0, 1]⟩ :=
  ⟨⟨rfl, rfl, rfl, rfl⟩, ⟨_, rfl⟩, .inl (by decide), .inr ⟨1, by decide, by decide⟩⟩

/-- Lengths 0 and 125, with a payload of that length. -/
theorem witness_ValidFrameFailsNoCheck :
    (⟨true, 0, 8, true, 0, []⟩ : Frame).payload.length = (⟨true, 0, 8, true, 0, []⟩ : Frame).length.toNat ∧
      ∃ f : Frame, f.length = 125 ∧ f.payload.length = f.length.toNat :=
  ⟨by decide, ⟨true, 0, 8, true, 125, List.replicate 125 0⟩, rfl, rfl⟩

theorem witness_ViolationCodesAre1002Or1007 :
    validate ⟨true, 0, 1, true, 1, [0xff]⟩ = .err .invalidText 1007 ∧
      validate ⟨true, 0, 1, false, 1, [0xff]⟩ = .err .unmasked 1002 := by decide

theorem witness_CheckWritesOnlyItsRegisters :
    (∃ k c, validate (Instr.rsv3 (ops true [])).frame = .err k c) ∧
      validate (Instr.ping (ops true [])).frame = .ok ∧ validate (Instr.close (ops true [])).frame = .ok :=
  ⟨⟨_, _, rfl⟩, by decide, by decide +kernel⟩

/-- For DataFramesAreEchoed. -/
theorem witness_DataFramesAreEchoed :
    (ops true [0x61]).masked = true ∧ (ops true [0x61]).rsv = 0 ∧ utf8Valid (ops true [0x61]).payload = true := by
  decide

/-- A control frame with a payload of 125 bytes: for PingIsAnsweredWithPong, PongIsDropped and
CloseLatchesThePeersCode. -/
theorem witness_PingIsAnsweredWithPong :
    let f : FrameOps := ⟨true, 0, true, .short, 125, some key2, List.replicate 125 0⟩
    f.masked = true ∧ f.fin = true ∧ f.rsv = 0 ∧ f.len.toNat ≤ 125 ∧ f.payload.length = f.len.toNat := by decide +kernel

theorem witness_CloseLatchesThePeersCode :
    (ops true []).len = 0 ∧ (ops true [0x0f, 0xa0]).payload = [0x0f, 0xa0] ∧ closeCodeLegal (be16 0x0f 0xa0) = true ∧
      utf8Valid [] = true ∧ (ops true [0x0f, 0xa0]).payload.length = (ops true [0x0f, 0xa0]).len.toNat := by
  decide

theorem witness_ReservedOpcodesAreRejected :
    (ops true []).masked = true ∧ (ops true []).fin = true ∧ (ops true []).len.toNat ≤ 125 ∧
      (Instr.rsv15 (ops false [])).opcode.toNat ∈ [3, 4, 5, 6, 7, 11, 12, 13, 14, 15] := by decide

theorem witness_UnmaskedFramesAreRejectedFirst :
    (Instr.text ⟨true, 0, false, .short, 0, none, []⟩).ops.masked = false := rfl

/-- Length 126, and FIN 0. -/
theorem witness_MisshapenControlFramesAreRejected :
    125 < (⟨true, 0, true, .ext16, 126, some key2, List.replicate 126 0⟩ : FrameOps).len.toNat ∧
      (ops false []).fin = false := by decide

theorem witness_NonzeroReservedBitsAreRejected :
    ({ ops true [] with rsv := 1 } : FrameOps).masked = true ∧ ({ ops true [] with rsv := 1 } : FrameOps).rsv ≠ 0 := by
  decide

theorem witness_InvalidFinalTextIsRejected :
    (ops true [0x80]).masked = true ∧ (ops true [0x80]).rsv = 0 ∧ utf8Valid (ops true [0x80]).payload = false ∧
      (ops false [0x80]).fin = false ∧ (ops true []).payload = [] := by decide

theorem witness_OneByteCloseIsRejected :
    (ops true [0x03]).masked = true ∧ (ops true [0x03]).fin = true ∧ (ops true [0x03]).rsv = 0 ∧
      (ops true [0x03]).len = 1 := by decide

/-- The codes 2999 and 5000, and the legal 4999. -/
theorem witness_IllegalCloseCodeIsRejected :
    (ops true [0x0b, 0xb7]).payload = [0x0b, 0xb7] ∧ (0x0b : Byte).toNat * 256 + (0xb7 : Byte).toNat = 2999 ∧
      (0x13 : Byte).toNat * 256 + (0x88 : Byte).toNat = 5000 ∧
      (0x13 : Byte).toNat * 256 + (0x87 : Byte).toNat = 4999 ∧
      (ops true [0x0b, 0xb7]).payload.length = (ops true [0x0b, 0xb7]).len.toNat := by decide

theorem witness_InvalidCloseReasonIsRejected :
    (ops true [0x03, 0xe8, 0x80]).payload = [0x03, 0xe8, 0x80] ∧ closeCodeLegal (be16 0x03 0xe8) = true ∧
      utf8Valid [0x80] = false ∧ (ops true [0x03, 0xe8, 0x80]).payload.length = (ops true [0x03, 0xe8, 0x80]).len.toNat := by
  decide

theorem witness_HandshakeNeedsAKey :
    (State.reset.conn = .handshaking ∧ State.reset.phase = .hsStart ∧ State.reset.err = .none ∧
      State.reset.keyPresent = true ∧ State.reset.keyIn ≠ [] ∧ State.reset.streamClosed = false ∧
      State.reset.closeAnswers = true) ∧
      ({ State.reset with keyIn := [] } : State).keyIn = [] := by decide

/-- A write that is answered, one that fails, one that is not answered. -/
theorem witness_ConnectionOpensWhenResponseIsWritten :
    let s : State := { State.reset with phase := .hsSend, txBuf := [0x48], txAnswers := ⟨[], [.done]⟩ }
    let f : State := { s with txAnswers := ⟨[.error 0], []⟩ }
    (s.conn = .handshaking ∧ s.phase = .hsSend ∧ s.err = .none ∧ s.txAnswers.pop = some (.done, ⟨[], [.done]⟩)) ∧
      (f.txAnswers.pop = some (.error 0, ⟨[], []⟩) ∧ f.streamClosed = false ∧ f.closeAnswers = true) ∧
      ({ s with txAnswers := ⟨[], []⟩ } : State).txAnswers.pop = none := by decide

theorem witness_ReplyIsWrittenWhole :
    let f : State := { helloReply with txAnswers := ⟨[.error 3], []⟩ }
    (helloReply.conn = .opened ∧ helloReply.phase = .reply ∧ helloReply.err = .none ∧
      helloReply.txAnswers.pop = some (.done, ⟨[], []⟩)) ∧
      (f.txAnswers.pop = some (.error 3, ⟨[], []⟩) ∧ f.streamClosed = false ∧ f.closeAnswers = true) ∧
      ({ helloReply with txAnswers := ⟨[], []⟩ } : State).txAnswers.pop = none := by decide

theorem witness_CloseFrameCarriesStatus :
    let f : State := { closeSend with txAnswers := ⟨[.error 4], []⟩ }
    (closeSend.conn = .closing ∧ closeSend.phase = .clSend ∧ closeSend.err = .none ∧
      closeSend.txAnswers.pop = some (.done, ⟨[], []⟩)) ∧
      (f.txAnswers.pop = some (.error 4, ⟨[], []⟩) ∧ f.streamClosed = false ∧ f.closeAnswers = true) ∧
      ({ closeSend with txAnswers := ⟨[], []⟩ } : State).txAnswers.pop = none := by decide

theorem witness_StreamIsClosedAtTheEnd :
    closeClose.conn = .closing ∧ closeClose.phase = .clClose ∧ closeClose.err = .none ∧
      closeClose.closeAnswers = true := by decide

theorem witness_ErrorEntryWritesExactly :
    (State.reset.closeAnswers = true ∧ ({ State.reset with streamClosed := true } : State).streamClosed = true) ∧
      (let s : State := { State.reset with closeAnswers := false }
       s.streamClosed = false ∧ s.closeAnswers = false ∧ s.phase.conn = s.conn ∧ s.phase ≠ .done) := by decide

theorem witness_ValidFrameIsAnsweredWhole :
    AtFrameStart pingBytes ∧ (∃ i, decode pingBytes.params (rxNext 10 pingBytes) = .complete i 10 ∧
      validate i.frame = .ok ∧ i.opcode ∈ [0, 1, 2, 9]) ∧ Brings 10 pingBytes.rxCuts ∧
      pingBytes.txAnswers.pop = some (.done, ⟨[], []⟩) :=
  ⟨⟨rfl, rfl, rfl, rfl⟩, ⟨_, rfl, by decide, by decide +kernel⟩, .inl (by decide), rfl⟩

/-- A reserved opcode (S8) and an empty close (S9). -/
theorem witness_ViolationOrCloseEndsInOrder :
    let s : State := opened [0x85, 0x80, 1, 2, 3, 4] (List.replicate 6 1)
    let c : State := opened [0x88, 0x80, 1, 2, 3, 4] [0, 6, 6, 6, 6, 6, 6]
    (AtFrameStart s ∧ (∃ i, decode s.params (rxNext 6 s) = .complete i 6 ∧ validate i.frame ≠ .ok) ∧
      Brings 6 s.rxCuts ∧ s.txAnswers.pop = some (.done, ⟨[], []⟩) ∧ s.closeAnswers = true) ∧
    (AtFrameStart c ∧ (∃ i, decode c.params (rxNext 6 c) = .complete i 6 ∧ i.opcode = 8 ∧ validate i.frame = .ok ∧
      i.ops.len = 0) ∧ Brings 6 c.rxCuts) :=
  ⟨⟨⟨rfl, rfl, rfl, rfl⟩, ⟨_, rfl, by decide⟩, .inl (by decide), rfl, rfl⟩,
    ⟨⟨rfl, rfl, rfl, rfl⟩, ⟨_, rfl, by decide, by decide +kernel, by decide +kernel⟩, .inl (by decide)⟩⟩

end Sys2Proof.Tests
end

section
/-! Which half of the streams a step can touch (20_memory.md R66): only a reading phase moves the RX stream, only a writing
phase moves the TX stream, and a reading phase is entered past a completed write or past a pong. -/

namespace Sys2Proof.Machine

/-- From `s` to `t` no read is issued, no RX answer used and no byte consumed. -/
structure KeepsRx (s t : State) : Prop where
  need : t.rxNeed = s.rxNeed
  cuts : t.rxCuts = s.rxCuts
  pos  : t.rxPos = s.rxPos

/-- From `s` to `t` no write is completed and no TX answer used. -/
structure KeepsTx (s t : State) : Prop where
  log     : t.txLog = s.txLog
  answers : t.txAnswers = s.txAnswers

/-! ## The step, by what it answers -/

/-- Everything the state after a step can be. -/
theorem step_next_cases {s t : State} (h : step s = .next t) :
    (s.err ≠ .none ∧ t = finishErrorEntry s) ∨
    (s.phase = .check ∧ ∃ k c, validate (fetchInstr s).frame = .err k c ∧
      t = latchViolation c { s with verdict := .err k c }) ∨
    (s.phase = .check ∧ validate (fetchInstr s).frame = .ok ∧
      t = dispatchOf (fetchInstr s) { s with verdict := .ok }) ∨
    (s.phase ≠ .check ∧ t = phaseStep s.phase s) := by
  rcases step_cases s with ⟨-, hs⟩ | ⟨-, he, -, hs⟩ | ⟨-, -, hp, hs⟩ | ⟨-, -, hp, hs⟩ <;> rw [hs] at h
  · cases h
  · cases h; exact .inl ⟨he, rfl⟩
  · obtain ⟨k, c, hv, hx⟩ | ⟨hv, hx⟩ := exec_cases (fetchInstr s) s <;> rw [hx] at h <;> cases h
    · exact .inr (.inl ⟨hp, k, c, hv, rfl⟩)
    · exact .inr (.inr (.inl ⟨hp, hv, rfl⟩))
  · cases h; exact .inr (.inr (.inr ⟨hp, rfl⟩))

/-! ## The port primitives -/

/-- `StreamRead` writes nothing. -/
theorem streamRead_keepsTx {cont : List Byte → State → State} (hcont : ∀ c u, KeepsTx u (cont c u))
    (n : BitVec 64) (s : State) : KeepsTx s (streamRead n cont s) := by
  rcases streamRead_cases n cont s with ⟨c, -, ⟨-, h⟩ | ⟨-, h⟩⟩ | ⟨-, h⟩ | ⟨-, h⟩ | ⟨-, h⟩ <;> rw [h]
  · exact ⟨by simp [(hcont _ _).log], by simp [(hcont _ _).answers]⟩
  all_goals exact ⟨by simp, by simp⟩

/-- `StreamWrite` reads nothing. -/
theorem streamWrite_keepsRx {cont : State → State} (hcont : ∀ u, KeepsRx u (cont u)) (s : State) :
    KeepsRx s (streamWrite cont s) := by
  rcases streamWrite_cases cont s with ⟨-, h⟩ | ⟨r, -, h⟩ | ⟨n, r, -, h⟩ <;> rw [h]
  · exact ⟨rfl, rfl, rfl⟩
  · exact ⟨(hcont _).need, (hcont _).cuts, (hcont _).pos⟩
  · exact ⟨rfl, rfl, rfl⟩

/-- A write answered `Done` goes on with its continuation; otherwise the phase and `tx_log` stay (R55). -/
theorem streamWrite_goes_on_or_stays (cont : State → State) (s : State) :
    (∃ r, s.txAnswers.pop = some (.done, r) ∧
      streamWrite cont s = cont { s with txAnswers := r, txLog := s.txLog ++ [s.txBuf], txBuf := [] }) ∨
    ((streamWrite cont s).phase = s.phase ∧ (streamWrite cont s).txLog = s.txLog) := by
  rcases streamWrite_cases cont s with ⟨-, h⟩ | h | ⟨n, r, -, h⟩
  · exact .inr (by rw [h]; exact ⟨rfl, rfl⟩)
  · exact .inl h
  · exact .inr (by rw [h]; exact ⟨rfl, rfl⟩)

/-! ## The writing phases (R192, R205, R206) -/

/-- The string that a writing phase writes. -/
def writtenString : Phase → State → List Byte
  | .clSend, s => encodeFrame (closeFrame s.status)
  | _, s => s.txBuf

/-- What follows the completed write of a writing phase. -/
def afterWrite : Phase → State → State
  | .hsSend, s => { s with conn := .opened, phase := .rxHdr }
  | .reply, s => { s with phase := .rxHdr }
  | .clSend, s => { s with closeSent := true, phase := .clClose }
  | _, s => s

/-- A writing phase is one `StreamWrite`. -/
theorem phaseStep_of_isWriting {p : Phase} (hp : p.isWriting = true) (s : State) :
    phaseStep p s = streamWrite (afterWrite p) { s with txBuf := writtenString p s } := by
  cases p with
  | hsSend | reply | clSend => rfl
  | _ => cases hp

@[simp] theorem afterWrite_txBuf (p : Phase) (s : State) : (afterWrite p s).txBuf = s.txBuf := by cases p <;> rfl

theorem afterWrite_keepsRx (p : Phase) (s : State) : KeepsRx s (afterWrite p s) := by
  cases p <;> exact ⟨rfl, rfl, rfl⟩

/-- A step of a writing phase completes its write and empties TX_BUF, or leaves the phase and `tx_log` as they are. -/
theorem phaseStep_write_cases {p : Phase} (hp : p.isWriting = true) (s : State) :
    (∃ r, s.txAnswers.pop = some (.done, r) ∧
      phaseStep p s =
        afterWrite p { s with txAnswers := r, txLog := s.txLog ++ [writtenString p s], txBuf := [] }) ∨
    ((phaseStep p s).phase = s.phase ∧ (phaseStep p s).txLog = s.txLog) := by
  rw [phaseStep_of_isWriting hp]
  exact streamWrite_goes_on_or_stays (afterWrite p) { s with txBuf := writtenString p s }

/-! ## What each phase leaves alone -/

theorem takeHeader_keepsTx (h : List Byte) (s : State) : KeepsTx s (takeHeader h s) := by
  unfold takeHeader; split <;> exact ⟨rfl, rfl⟩

theorem takeExt16_keepsTx (e : List Byte) (s : State) : KeepsTx s (takeExt16 e s) := by
  unfold takeExt16; split <;> exact ⟨rfl, rfl⟩

theorem takeExt64_keepsTx (e : List Byte) (s : State) : KeepsTx s (takeExt64 e s) := ⟨rfl, rfl⟩

theorem takePayload_keepsTx (r : List Byte) (s : State) : KeepsTx s (takePayload r s) := ⟨rfl, rfl⟩

theorem takeKey_keepsTx (k : List Byte) (s : State) : KeepsTx s (takeKey k s) := by
  unfold takeKey; split <;> exact ⟨rfl, rfl⟩

/-- A phase that is not a writing one writes nothing. -/
theorem phaseStep_keepsTx {p : Phase} (hp : p.isWriting = false) (s : State) : KeepsTx s (phaseStep p s) := by
  cases p with
  | hsStart => simp only [phaseStep, stepHsStart]; split <;> exact ⟨rfl, rfl⟩
  | rxHdr => exact streamRead_keepsTx takeHeader_keepsTx 2 s
  | rxExt =>
    simp only [phaseStep, stepRxExt]
    split
    · exact ⟨rfl, rfl⟩
    · exact streamRead_keepsTx takeExt16_keepsTx 2 s
    · exact streamRead_keepsTx takeExt64_keepsTx 8 s
  | rxKey =>
    simp only [phaseStep, stepRxKey]
    split
    · exact streamRead_keepsTx takeKey_keepsTx 4 s
    · exact ⟨rfl, rfl⟩
  | rxPay =>
    simp only [phaseStep, stepRxPay]
    split
    · exact ⟨rfl, rfl⟩
    · split
      · exact ⟨rfl, rfl⟩
      · exact streamRead_keepsTx takePayload_keepsTx s.fLen s
  | clClose => simp only [phaseStep, stepClClose]; split <;> exact ⟨rfl, rfl⟩
  | check | done => exact ⟨rfl, rfl⟩
  | hsSend | reply | clSend => cases hp

/-- A phase that is not a reading one reads nothing. -/
theorem phaseStep_keepsRx {p : Phase} (hp : p.isReading = false) (s : State) : KeepsRx s (phaseStep p s) := by
  cases p with
  | hsStart => simp only [phaseStep, stepHsStart]; split <;> exact ⟨rfl, rfl, rfl⟩
  | hsSend | reply | clSend =>
    rw [phaseStep_of_isWriting rfl]
    obtain ⟨hn, hc, hpos⟩ := streamWrite_keepsRx (afterWrite_keepsRx _) { s with txBuf := writtenString _ s }
    exact ⟨hn, hc, hpos⟩
  | clClose => simp only [phaseStep, stepClClose]; split <;> exact ⟨rfl, rfl, rfl⟩
  | check | done => exact ⟨rfl, rfl, rfl⟩
  | rxHdr | rxExt | rxKey | rxPay => cases hp

/-- A phase that completes a write leaves TX_BUF empty. -/
theorem phaseStep_txBuf_of_written {p : Phase} {s : State} (h : (phaseStep p s).txLog ≠ s.txLog) :
    (phaseStep p s).txBuf = [] := by
  cases hp : p.isWriting with
  | false => exact absurd (phaseStep_keepsTx hp s).log h
  | true =>
    obtain ⟨r, -, he⟩ | ⟨-, hl⟩ := phaseStep_write_cases hp s
    · rw [he, afterWrite_txBuf]
    · exact absurd hl h

/-- A phase that neither reads nor writes does not lead to a reading phase; CHECK is not run by `phaseStep`. -/
theorem phaseStep_not_isReading {s : State} (hr : s.phase.isReading = false) (hw : s.phase.isWriting = false) :
    (phaseStep s.phase s).phase.isReading = false := by
  cases hp : s.phase with
  | hsStart => simp only [phaseStep, stepHsStart]; split <;> simp [hp, Phase.isReading]
  | clClose => simp only [phaseStep, stepClClose]; split <;> simp [hp, Phase.isReading]
  | check | done => simpa [phaseStep] using hr
  | hsSend | reply | clSend => rw [hp] at hw; cases hw
  | rxHdr | rxExt | rxKey | rxPay => rw [hp] at hr; cases hr

/-- Only the response and the reply lead from a writing phase to a reading one, once their write is answered `Done`. -/
theorem phaseStep_enters_reading {s : State} (hr : s.phase.isReading = false)
    (ht : (phaseStep s.phase s).phase.isReading = true) :
    (s.phase = .hsSend ∨ s.phase = .reply) ∧
      s.txAnswers.pop = some (.done, (phaseStep s.phase s).txAnswers) ∧
      (phaseStep s.phase s).txLog = s.txLog ++ [s.txBuf] ∧ (phaseStep s.phase s).txBuf = [] := by
  cases hw : s.phase.isWriting with
  | false => rw [phaseStep_not_isReading hr hw] at ht; cases ht
  | true =>
    obtain ⟨r, hpop, he⟩ | ⟨hp, -⟩ := phaseStep_write_cases hw s
    · rw [he] at ht ⊢
      cases hp : s.phase with
      | hsSend => exact ⟨.inl rfl, hpop, rfl, rfl⟩
      | reply => exact ⟨.inr rfl, hpop, rfl, rfl⟩
      | clSend => rw [hp] at ht; cases ht
      | _ => rw [hp] at hw; cases hw
    · rw [hp, hr] at ht; cases ht

/-! ## CHECK -/

/-- The dispatch of a close reads and writes nothing. -/
theorem peerClose_keeps (f : FrameOps) (s : State) : KeepsRx s (peerClose f s) ∧ KeepsTx s (peerClose f s) := by
  unfold peerClose; split <;> exact ⟨⟨rfl, rfl, rfl⟩, ⟨rfl, rfl⟩⟩

/-- No dispatch reads or writes. -/
theorem dispatchOf_keeps (i : Instr) (s : State) : KeepsRx s (dispatchOf i s) ∧ KeepsTx s (dispatchOf i s) := by
  cases i with
  | close f => exact peerClose_keeps f s
  | _ => exact ⟨⟨rfl, rfl, rfl⟩, ⟨rfl, rfl⟩⟩

/-- A valid frame's opcode is not reserved (R154). -/
theorem isReservedOpcode_of_validate_ok {f : Frame} (h : validate f = .ok) : isReservedOpcode f.opcode = false := by
  by_contra hr
  rw [Bool.not_eq_false] at hr
  cases hm : f.masked with
  | false => exact violation_ne_ok _ ((validate_unmasked hm).symm.trans h)
  | true =>
    by_cases hs : ShapeOk f
    · exact violation_ne_ok _ ((validate_reserved hm hs hr).symm.trans h)
    · exact violation_ne_ok _ ((validate_shape hm hs).symm.trans h)

/-- Of the valid frames only a pong leads back to a reading phase, with nothing to write (R203). -/
theorem dispatchOf_isReading {i : Instr} {s : State} (hv : validate i.frame = .ok)
    (h : (dispatchOf i s).phase.isReading = true) : i.opcode = 10 ∧ dispatchOf i s = dropFrame s := by
  have hr : isReservedOpcode i.opcode = false := isReservedOpcode_of_validate_ok hv
  cases i with
  | pong f => exact ⟨rfl, rfl⟩
  | cont f | text f | binary f | ping f | close f => cases h
  | _ => cases hr

theorem fetchInstr_opcode (s : State) : (fetchInstr s).opcode = s.fOpcode := Instr.opcode_ofOpcode _ _

/-! ## The step -/

/-- Only a step of a reading phase moves the RX stream. -/
theorem step_keepsRx {s t : State} (h : step s = .next t) (hp : s.phase.isReading = false) : KeepsRx s t := by
  obtain ⟨-, rfl⟩ | ⟨-, k, c, -, rfl⟩ | ⟨-, -, rfl⟩ | ⟨-, rfl⟩ := step_next_cases h
  · exact ⟨by simp, by simp, by simp⟩
  · exact ⟨rfl, rfl, rfl⟩
  · obtain ⟨hn, hc, hpos⟩ := (dispatchOf_keeps (fetchInstr s) { s with verdict := .ok }).1
    exact ⟨hn, hc, hpos⟩
  · exact phaseStep_keepsRx hp s

/-- Only a step of a writing phase moves the TX stream. -/
theorem step_keepsTx {s t : State} (h : step s = .next t) (hp : s.phase.isWriting = false) : KeepsTx s t := by
  obtain ⟨-, rfl⟩ | ⟨-, k, c, -, rfl⟩ | ⟨-, -, rfl⟩ | ⟨-, rfl⟩ := step_next_cases h
  · exact ⟨by simp, by simp⟩
  · exact ⟨rfl, rfl⟩
  · obtain ⟨hl, ha⟩ := (dispatchOf_keeps (fetchInstr s) { s with verdict := .ok }).2
    exact ⟨hl, ha⟩
  · exact phaseStep_keepsTx hp s

/-- A step that completes a write leaves TX_BUF empty. -/
theorem step_txBuf_of_written {s t : State} (h : step s = .next t) (hl : t.txLog ≠ s.txLog) : t.txBuf = [] := by
  obtain ⟨-, rfl⟩ | ⟨-, k, c, -, rfl⟩ | ⟨-, -, rfl⟩ | ⟨-, rfl⟩ := step_next_cases h
  · exact absurd (finishErrorEntry_txLog s) hl
  · exact absurd rfl hl
  · exact absurd (dispatchOf_keeps (fetchInstr s) { s with verdict := .ok }).2.log hl
  · exact phaseStep_txBuf_of_written hl

/-- A reading phase is entered past the completed write of the response or the reply, or past a pong (R66). -/
theorem step_enters_reading {s t : State} (h : step s = .next t) (hs : s.phase.isReading = false)
    (ht : t.phase.isReading = true) :
    ((s.phase = .hsSend ∨ s.phase = .reply) ∧ s.txAnswers.pop = some (.done, t.txAnswers) ∧
      t.txLog = s.txLog ++ [s.txBuf] ∧ t.txBuf = []) ∨
    (s.phase = .check ∧ s.fOpcode = 10 ∧ t = dropFrame { s with verdict := .ok }) := by
  obtain ⟨-, rfl⟩ | ⟨-, k, c, -, rfl⟩ | ⟨hp, hv, rfl⟩ | ⟨-, rfl⟩ := step_next_cases h
  · obtain ⟨he, -⟩ | ⟨he, -⟩ := finishErrorEntry_cases s <;> rw [he] at ht
    · cases ht
    · rw [hs] at ht; cases ht
  · cases ht
  · obtain ⟨ho, hd⟩ := dispatchOf_isReading hv ht
    exact .inr ⟨hp, (fetchInstr_opcode s).symm.trans ho, hd⟩
  · exact .inl (phaseStep_enters_reading hs ht)

/-- No phase both reads and writes. -/
theorem Phase.isWriting_eq_false_of_isReading {p : Phase} (h : p.isReading = true) : p.isWriting = false := by
  cases p with
  | rxHdr | rxExt | rxKey | rxPay => rfl
  | _ => cases h

/-! ## R66 -/

/-- Settles O9, by the half of the streams that each kind of phase leaves alone: a step that moves the RX stream stands in
a reading phase, one that moves the TX stream in a writing phase, and no phase is both. -/
theorem writeCompletesBeforeNextRead : Obligations.WriteCompletesBeforeNextRead := by
  intro s t hinv hstep
  refine ⟨fun hrx => ?_, fun hs ht => ?_, fun hlog => ?_⟩
  · have hr : s.phase.isReading = true := by
      by_contra hr
      obtain ⟨hn, hc, hpos⟩ := step_keepsRx hstep (Bool.eq_false_of_not_eq_true hr)
      simp [hn, hc, hpos] at hrx
    have hw := Phase.isWriting_eq_false_of_isReading hr
    obtain ⟨hl, ha⟩ := step_keepsTx hstep hw
    exact ⟨hr, hinv.tx_buf_empty hw, hl, ha⟩
  · obtain hdone | ⟨hp, ho, rfl⟩ := step_enters_reading hstep hs ht
    · exact .inl hdone
    · have hbuf : s.txBuf = [] := hinv.tx_buf_empty (by rw [hp]; rfl)
      exact .inr ⟨hp, ho, hbuf, hbuf, rfl⟩
  · have hw : s.phase.isWriting = true := by
      by_contra hw
      exact hlog (step_keepsTx hstep (Bool.eq_false_of_not_eq_true hw)).log
    have hr : s.phase.isReading = false := Bool.eq_false_of_not_eq_true fun hr => by
      rw [Phase.isWriting_eq_false_of_isReading hr] at hw
      cases hw
    obtain ⟨hn, hc, hpos⟩ := step_keepsRx hstep hr
    exact ⟨hw, hpos, hn, hc, step_txBuf_of_written hstep hlog⟩

end Sys2Proof.Machine
end

section
/-! The strings the block writes once the connection is open (30_encoding.md R84): each is the encoder's result on a frame,
and the encoder's header has reserved bits 0, MASK 0 and no key. -/

namespace Sys2Proof.Machine

/-! ## The encoder's header (R131 to R133) -/

/-- The reserved bits as a number are bits 6 to 4 of the byte (R73). -/
theorem rsvBits_toNat (b : Byte) : (rsvBits b).toNat = b.toNat / 16 % 8 := by
  simp [rsvBits, BitVec.extractLsb'_toNat, Nat.shiftRight_eq_div_pow]

theorem byte0_reserved_zero (fin : Bool) (op : BitVec 4) : (byte0 fin 0 op).toNat / 16 % 8 = 0 := by
  rw [← rsvBits_toNat, rsvBits_byte0]; rfl

/-- The header the block writes: byte 0 with reserved bits 0, byte 1 with MASK 0, then 0, 2 or 8 bytes of extended
length. -/
theorem frameHeader_shape (fin : Bool) (op : BitVec 4) (n : Nat) :
    ∃ (b1 : Byte) (ext : List Byte), frameHeader fin op n = byte0 fin 0 op :: b1 :: ext ∧ b1.toNat < 128 ∧
      (ext.length = 0 ∨ ext.length = 2 ∨ ext.length = 8) := by
  unfold frameHeader
  split
  next hshort =>
    refine ⟨BitVec.ofNat 8 n, [], rfl, ?_, .inl rfl⟩
    rw [BitVec.toNat_ofNat]
    omega
  next =>
    split
    · exact ⟨126, be16bytes _, rfl, by decide, .inr (.inl rfl)⟩
    · exact ⟨127, be64bytes _, rfl, by decide, .inr (.inr rfl)⟩

/-- An encoded frame: reserved bits 0, MASK 0, and between the extended length and the payload no key (R84). -/
theorem encodeFrame_shape (f : Frame) :
    ∃ (b0 b1 : Byte) (rest : List Byte), encodeFrame f = b0 :: b1 :: rest ∧ b0.toNat / 16 % 8 = 0 ∧ b1.toNat < 128 ∧
      (rest = f.payload ∨ (∃ x y, rest = x :: y :: f.payload) ∨
        (∃ e : List Byte, e.length = 8 ∧ rest = e ++ f.payload)) := by
  obtain ⟨b1, ext, hhead, hmask, hext⟩ := frameHeader_shape f.fin f.opcode f.payload.length
  refine ⟨byte0 f.fin 0 f.opcode, b1, ext ++ f.payload, by rw [encodeFrame, hhead]; rfl, byte0_reserved_zero _ _,
    hmask, ?_⟩
  obtain h0 | h2 | h8 := hext
  · rw [List.length_eq_zero_iff] at h0
    exact .inl (by rw [h0]; rfl)
  · obtain ⟨x, y, rfl⟩ := List.length_eq_two.mp h2
    exact .inr (.inl ⟨x, y, rfl⟩)
  · exact .inr (.inr ⟨ext, h8, rfl⟩)

/-! ## The string a step writes -/

@[simp] theorem afterWrite_txLog (p : Phase) (s : State) : (afterWrite p s).txLog = s.txLog := by cases p <;> rfl

/-- A step that appends a string to `tx_log` stands in a writing phase with no error and writes that phase's string. -/
theorem step_appends_writtenString {s t : State} {w : List Byte} (h : step s = .next t)
    (hl : t.txLog = s.txLog ++ [w]) :
    s.phase.isWriting = true ∧ s.err = .none ∧ w = writtenString s.phase s := by
  have hne : t.txLog ≠ s.txLog := by simp [hl]
  have hw : s.phase.isWriting = true := by
    by_contra hw
    exact hne (step_keepsTx h (Bool.eq_false_of_not_eq_true hw)).log
  rcases step_cases s with ⟨-, hs⟩ | ⟨-, -, -, hs⟩ | ⟨-, -, hcheck, -⟩ | ⟨-, he | hdone, -, hs⟩
  · rw [hs] at h; cases h
  · rw [hs] at h; cases h
    exact absurd (finishErrorEntry_txLog s) hne
  · rw [hcheck] at hw; cases hw
  · rw [hs] at h; cases h
    obtain ⟨r, -, ht⟩ | ⟨-, hlog⟩ := phaseStep_write_cases hw s
    · rw [ht, afterWrite_txLog] at hl
      exact ⟨hw, he, by simpa using hl.symm⟩
    · exact absurd hlog hne
  · rw [hdone] at hw; cases hw

/-- After the response, the string of a writing phase is a frame of the encoder: the reply's on the frame in flight, or
the close frame with `STATUS` (R198, R206). -/
theorem writtenString_eq_encodeFrame {s : State} (hinv : Inv s) (hw : s.phase.isWriting = true) (he : s.err = .none)
    (hc : s.conn ≠ .handshaking) : ∃ f : Frame, writtenString s.phase s = encodeFrame f := by
  cases hp : s.phase with
  | hsSend => exact absurd (by rw [← hinv.phase_in_state, hp]; rfl) hc
  | reply => exact ⟨frameInFlight s, hinv.reply_frame hp he⟩
  | clSend => exact ⟨closeFrame s.status, rfl⟩
  | _ => rw [hp] at hw; cases hw

/-! ## R84 -/

/-- Settles O12: a step that writes stands in a writing phase, past the response that phase writes an encoded frame, and
the encoder's header has reserved bits 0, MASK 0 and no key. -/
theorem serverFramesAreUnmasked : Obligations.ServerFramesAreUnmasked := by
  intro s t hinv hstep hconn w hlog
  obtain ⟨hw, he, rfl⟩ := step_appends_writtenString hstep hlog
  obtain ⟨f, hf⟩ := writtenString_eq_encodeFrame hinv hw he hconn
  rw [hf]
  obtain ⟨b0, b1, rest, hshape⟩ := encodeFrame_shape f
  exact ⟨f, b0, b1, rest, rfl, hshape⟩

end Sys2Proof.Machine
end

section
/-! The decoder piece by piece (40_frame_decode.md R101 to R104, R108): the mask applicator by index, the header fields
as numbers, and the reading phases RX_HDR and RX_EXT as one step each. -/

namespace Sys2Proof

/-! ## The mask applicator (R108) -/

/-- The lane of a key by index is the list of its bytes at the index modulo 4 (R81). -/
theorem Key.lane_eq_getD (k : Key) (i : Nat) : k.lane i = k.bytes.getD (i % 4) 0 := by
  have h : i % 4 < 4 := Nat.mod_lt _ (by decide)
  unfold Key.lane
  interval_cases i % 4 <;> rfl

/-- Byte `j` of a masked string that begins at index `i` takes lane `i + j`. -/
theorem maskFrom_getElem? (k : Key) (p : List Byte) (i j : Nat) :
    (maskFrom k i p)[j]? = p[j]?.map (· ^^^ k.lane (i + j)) := by
  induction p generalizing i j with
  | nil => rfl
  | cons b p ih =>
    cases j with
    | zero => rfl
    | succ j => simp only [maskFrom, List.getElem?_cons_succ, ih, Nat.add_right_comm, Nat.add_assoc]

/-- Byte `i` of a masked string takes lane `i`. -/
theorem applyMask_getElem? (p : List Byte) (k : Key) (i : Nat) : (applyMask p k)[i]? = p[i]?.map (· ^^^ k.lane i) := by
  rw [applyMask, maskFrom_getElem?, Nat.zero_add]

/-! ## The header fields as numbers (R71 to R73) -/

theorem finBit_eq_decide (b : Byte) : finBit b = decide (128 ≤ b.toNat) :=
  (BitVec.msb_eq_getLsbD_last b).symm.trans (BitVec.msb_eq_decide b)

theorem maskBit_eq_decide (b : Byte) : maskBit b = decide (128 ≤ b.toNat) := finBit_eq_decide b

theorem rsvBits_eq_ofNat (b : Byte) : rsvBits b = BitVec.ofNat 3 (b.toNat / 16) := by
  apply BitVec.eq_of_toNat_eq
  rw [Machine.rsvBits_toNat, BitVec.toNat_ofNat]

theorem opcodeBits_eq_ofNat (b : Byte) : opcodeBits b = BitVec.ofNat 4 b.toNat := rfl

theorem len7Bits_eq_ofNat (b : Byte) : len7Bits b = BitVec.ofNat 7 b.toNat := rfl

/-! ## The extended lengths as numbers (R13, R74) -/

theorem be16_setWidth_eq_ofNat (x y : Byte) : (be16 x y).setWidth 64 = BitVec.ofNat 64 (x.toNat * 256 + y.toNat) := by
  rw [← BitVec.ofNat_toNat, be16_toNat]

/-- The Horner value of eight bytes is the sum of the bytes by their places. -/
theorem beNat_eight (e0 e1 e2 e3 e4 e5 e6 e7 : Byte) :
    beNat [e0, e1, e2, e3, e4, e5, e6, e7] =
      e0.toNat * 256 ^ 7 + e1.toNat * 256 ^ 6 + e2.toNat * 256 ^ 5 + e3.toNat * 256 ^ 4 +
        e4.toNat * 256 ^ 3 + e5.toNat * 256 ^ 2 + e6.toNat * 256 + e7.toNat := by
  simp only [beNat, List.foldl_cons, List.foldl_nil]
  omega

theorem LenForm.ofLen7_of_le {n : BitVec 7} (h : n.toNat ≤ 125) : LenForm.ofLen7 n = .short := if_pos h

/-! ## O21 -/

/-- Settles O21, by the bytes of the masked string by index and the lane as a place in the list of the key's bytes. -/
theorem maskXorsEachByteWithItsLane : Obligations.MaskXorsEachByteWithItsLane := by
  intro p k
  refine ⟨applyMask_length p k, fun i hi => ?_⟩
  rw [List.getD_eq_getElem?_getD, applyMask_getElem?, Key.lane_eq_getD, List.getElem?_eq_getElem hi,
    List.getD_eq_getElem p 0 hi]
  rfl

end Sys2Proof

namespace Sys2Proof.Machine

/-! ## A step whose phase is one read (R53) -/

/-- A read begun or under way differs only in RX_NEED and RX_ACC. -/
theorem beginRead_eq (n : BitVec 64) (s : State) :
    beginRead n s = { s with rxNeed := (beginRead n s).rxNeed, rxAcc := (beginRead n s).rxAcc } := by
  unfold beginRead
  split <;> rfl

section
variable {s : State} {cut : Nat} {cuts : Answers Nat} {n : BitVec 64} {cont : List Byte → State → State}

/-- A step whose phase is a read not yet begun, all of whose bytes the first answer brings, goes on with those bytes. -/
theorem step_of_read_at_once (hstep : step s = .next (streamRead n cont s)) (hc : s.rxCuts.pop = some (cut, cuts))
    (hneed : s.rxNeed = 0) (hn : n ≠ 0) {c : List Byte} (hnext : rxNext n.toNat s = c) (hl : c.length = n.toNat)
    (hcut : n.toNat ≤ cut) :
    step s = .next (cont c { s with rxAcc := c, rxPos := s.rxPos + n.toNat, rxCuts := cuts }) := by
  subst hnext
  rw [hstep, streamRead_at_once hneed hc hn hl hcut, ← hneed]

/-- A step whose phase is a read raises `IoFailure` when the exhausted stream answers its end, whether or not the read
is under way. -/
theorem step_of_read_at_end (hstep : step s = .next (streamRead n cont s)) (hc : s.rxCuts.pop = some (cut, cuts))
    (he : rxNext 1 s = []) (hcut : 1 ≤ cut) :
    (s.rxEnd = .eof → ReadRaises .shortRead s cuts) ∧ (s.rxEnd = .error → ReadRaises .streamError s cuts) := by
  obtain ⟨heof, herr⟩ := streamRead_at_end (n := n) (cont := cont) hc hcut he
  rw [beginRead_eq] at heof herr
  exact ⟨fun h => ⟨_, _, by rw [hstep, heof h]⟩, fun h => ⟨_, _, by rw [hstep, herr h]⟩⟩

end

/-! ## The phases RX_HDR and RX_EXT as steps -/

section
variable {s : State}

/-- A step in RX_HDR reads two bytes (R101). -/
theorem step_rxHdr (hconn : s.conn = .opened) (hp : s.phase = .rxHdr) (he : s.err = .none) :
    step s = .next (streamRead 2 takeHeader s) := by
  rw [step_of_phase (by rw [hp, hconn]; rfl) he (by rw [hp]; decide), hp]
  rfl

/-- A step in RX_EXT runs the length form that F_LEN7 selects (R102 to R104). -/
theorem step_rxExt (hconn : s.conn = .opened) (hp : s.phase = .rxExt) (he : s.err = .none) :
    step s = .next (stepRxExt s) := by
  rw [step_of_phase (by rw [hp, hconn]; rfl) he (by rw [hp]; decide), hp]
  rfl

theorem stepRxExt_short (h : s.fLen7.toNat ≤ 125) :
    stepRxExt s = { s with fLen := s.fLen7.setWidth 64, phase := .rxKey } := by
  rw [stepRxExt, LenForm.ofLen7_of_le h]

theorem stepRxExt_ext16 (h : s.fLen7 = 126) : stepRxExt s = streamRead 2 takeExt16 s := by
  rw [stepRxExt, h]; rfl

theorem stepRxExt_ext64 (h : s.fLen7 = 127) : stepRxExt s = streamRead 8 takeExt64 s := by
  rw [stepRxExt, h]; rfl

end

/-! ## O24 to O27 -/

/-- Settles O24: the step in RX_HDR is one read of two bytes, and its fields are the statement's
numbers. -/
theorem baseHeaderIsCutIntoItsFields : Obligations.BaseHeaderIsCutIntoItsFields := by
  intro s cut cuts hpop
  refine ⟨fun h0 h1 ⟨hconn, hp, he, hneed⟩ hnext hcut => ⟨[h0, h1], ?_⟩, fun hconn hp he hend hcut =>
    step_of_read_at_end (step_rxHdr hconn hp he) hpop hend hcut⟩
  rw [step_of_read_at_once (step_rxHdr hconn hp he) hpop hneed (by decide) hnext rfl hcut]
  simp only [takeHeader, finBit_eq_decide, maskBit_eq_decide, rsvBits_eq_ofNat, opcodeBits_eq_ofNat, len7Bits_eq_ofNat]
  rfl

/-- Settles O25: the SHORT form of RX_EXT issues no read. -/
theorem shortLengthReadsNoByte : Obligations.ShortLengthReadsNoByte := by
  intro s hconn hp he hlen
  rw [step_rxExt hconn hp he, stepRxExt_short hlen, BitVec.ofNat_toNat]

/-- Settles O26: the EXT16 form of RX_EXT is one read of two bytes. -/
theorem ext16LengthIsTheTwoBytes : Obligations.Ext16LengthIsTheTwoBytes := by
  intro s cut cuts hconn hp he hlen7 hpop
  have hstep : step s = .next (streamRead 2 takeExt16 s) := by
    rw [step_rxExt hconn hp he, stepRxExt_ext16 hlen7]
  refine ⟨fun e0 e1 hneed hnext hcut => ⟨[e0, e1], ?_⟩, step_of_read_at_end hstep hpop⟩
  rw [step_of_read_at_once hstep hpop hneed (by decide) hnext rfl hcut, takeExt16, be16_setWidth_eq_ofNat]
  rfl

/-- Settles O27: the EXT64 form of RX_EXT is one read of eight bytes. -/
theorem ext64LengthIsTheEightBytes : Obligations.Ext64LengthIsTheEightBytes := by
  intro s cut cuts hconn hp he hlen7 hpop
  have hstep : step s = .next (streamRead 8 takeExt64 s) := by
    rw [step_rxExt hconn hp he, stepRxExt_ext64 hlen7]
  refine ⟨fun e0 e1 e2 e3 e4 e5 e6 e7 hneed hnext hcut => ⟨[e0, e1, e2, e3, e4, e5, e6, e7], ?_⟩,
    step_of_read_at_end hstep hpop⟩
  rw [step_of_read_at_once hstep hpop hneed (by decide) hnext rfl hcut, takeExt64, be64, beNat_eight]
  rfl

end Sys2Proof.Machine
end

section
/-! The frame encoder's bytes as numbers (41_frame_encode.md R131 to R134): byte 0, the big-endian length fields, and the
header in each of its three length forms. -/

namespace Sys2Proof

/-! ## The encoder's fields as numbers (R13, R131) -/

theorem byte0_zero_rsv_toNat (fin : Bool) (op : BitVec 4) : (byte0 fin 0 op).toNat = fin.toNat * 128 + op.toNat := by
  revert fin op; decide

theorem toNat_ofNat_of_lt {w n : Nat} (h : n < 2 ^ w) : (BitVec.ofNat w n).toNat = n := by
  rw [BitVec.toNat_ofNat, Nat.mod_eq_of_lt h]

theorem be16bytes_map_toNat (v : BitVec 16) :
    (be16bytes v).map BitVec.toNat = [v.toNat / 256, v.toNat % 256] := by
  have hhigh : v.toNat / 2 ^ 8 < 256 := Nat.div_lt_of_lt_mul v.isLt
  simp only [be16bytes, List.map_cons, List.map_nil, extractLsb'_byte_toNat, pow_zero, Nat.div_one]
  rw [Nat.mod_eq_of_lt hhigh]
  rfl

/-- Byte `k` of eight has the place `256 ^ (7 - k)`. -/
theorem be64bytes_map_toNat (v : BitVec 64) :
    (be64bytes v).map BitVec.toNat = (List.range 8).map fun k => v.toNat / 256 ^ (7 - k) % 256 := by
  simp only [be64bytes, List.cons_append, List.nil_append, List.map_cons, List.map_nil, extractLsb'_byte_toNat]
  rfl

end Sys2Proof

namespace Sys2Proof.Machine

/-! ## The header in its three forms (R132, R133) -/

section
variable (fin : Bool) (op : BitVec 4) {n : Nat}

theorem frameHeader_short (h : n ≤ 125) :
    (frameHeader fin op n).map BitVec.toNat = [fin.toNat * 128 + op.toNat, n] := by
  have hbyte : (BitVec.ofNat 8 n).toNat = n := toNat_ofNat_of_lt (by omega)
  rw [frameHeader, if_pos h, List.map_cons, List.map_cons, List.map_nil, byte0_zero_rsv_toNat, hbyte]

theorem frameHeader_ext16 (hlo : 126 ≤ n) (hhi : n ≤ 65535) :
    (frameHeader fin op n).map BitVec.toNat = [fin.toNat * 128 + op.toNat, 126, n / 256, n % 256] := by
  have hlen : (BitVec.ofNat 16 n).toNat = n := toNat_ofNat_of_lt (by omega)
  rw [frameHeader, if_neg (by omega), if_pos hhi, List.map_append, be16bytes_map_toNat, hlen, List.map_cons,
    byte0_zero_rsv_toNat]
  rfl

theorem frameHeader_ext64 (hlo : 65536 ≤ n) (hhi : n < 2 ^ 64) :
    (frameHeader fin op n).map BitVec.toNat =
      [fin.toNat * 128 + op.toNat, 127] ++ (List.range 8).map (fun k => n / 256 ^ (7 - k) % 256) := by
  have hlen : (BitVec.ofNat 64 n).toNat = n := toNat_ofNat_of_lt hhi
  rw [frameHeader, if_neg (by omega), if_neg (by omega), List.map_append, be64bytes_map_toNat, hlen, List.map_cons,
    byte0_zero_rsv_toNat]
  rfl

end

/-! ## O23 -/

/-- The payload follows the header unmodified (R133, R134). -/
theorem encodeFrame_map_toNat (f : Frame) :
    (encodeFrame f).map BitVec.toNat =
      (frameHeader f.fin f.opcode f.payload.length).map BitVec.toNat ++ f.payload.map BitVec.toNat :=
  List.map_append

/-- Settles O23: the header by the length form that the payload's length selects, then the payload. -/
theorem encoderWritesTheMinimalUnmaskedForm : Obligations.EncoderWritesTheMinimalUnmaskedForm := by
  intro f
  refine ⟨fun hshort => ?_, fun hlo hhi => ?_, fun hlo hhi => ?_⟩
  · rw [encodeFrame_map_toNat, frameHeader_short _ _ hshort]
  · rw [encodeFrame_map_toNat, frameHeader_ext16 _ _ hlo hhi]
  · rw [encodeFrame_map_toNat, frameHeader_ext64 _ _ hlo hhi]

end Sys2Proof.Machine
end

section
/-! The validator's verdicts (42_frame_validate.md R152 to R166, R171): when each check passes, in numbers, a valid frame
as one that passes them all, and a rejected frame's next state. -/

namespace Sys2Proof.Machine

/-! ## The checks (R153 to R166) -/

section
variable {f : Frame}

/-- The reserved opcodes are 3 to 7 and 11 to 15 (R77). -/
theorem isReservedOpcode_iff_mem (op : BitVec 4) :
    isReservedOpcode op = true ↔ op.toNat ∈ [3, 4, 5, 6, 7, 11, 12, 13, 14, 15] := by
  revert op; decide

/-- The legal codes in numbers (R166). -/
theorem closeCodeLegal_iff (c : BitVec 16) :
    closeCodeLegal c = true ↔ c.toNat < 5000 ∧ (3000 ≤ c.toNat ∨ c.toNat ∈ closeCodeRegistry) := by
  rw [closeCodeLegal, Bool.and_eq_true, Bool.or_eq_true, decide_eq_true_iff, decide_eq_true_iff, List.contains_iff_mem]

/-- Check 2 in numbers (R153). -/
theorem shapeOk_iff : ShapeOk f ↔ (8 ≤ f.opcode.toNat → f.length.toNat ≤ 125 ∧ f.fin = true) := by
  rw [ShapeOk, isControl_iff, not_and, not_or, Nat.not_lt, Bool.not_eq_false]

/-- A data frame has no shape to keep (R153). -/
theorem shapeOk_of_data (f : FrameOps) {op : BitVec 4} (h : op.toNat < 8) : ShapeOk (f.frame op) :=
  shapeOk_iff.mpr fun h8 => absurd h8 (Nat.not_le.mpr h)

theorem shapeOk_of_final_short (hfin : f.fin = true) (hlen : f.length.toNat ≤ 125) : ShapeOk f :=
  shapeOk_iff.mpr fun _ => ⟨hlen, hfin⟩

/-- One check of the validator: the verdict is `Ok` when the check does not fail and what follows it gives `Ok`. -/
theorem ite_violation_eq_ok_iff {p : Prop} [Decidable p] {k : ViolationKind} {v : Verdict} :
    (if p then violation k else v) = .ok ↔ ¬p ∧ v = .ok := by
  split <;> simp [*, violation_ne_ok]

/-- A frame is valid exactly when it passes the checks in turn (R151, R162). -/
theorem validate_eq_ok_iff :
    validate f = .ok ↔
      f.masked = true ∧ ShapeOk f ∧ isReservedOpcode f.opcode = false ∧ f.rsv = 0 ∧
        (f.opcode = 1 → f.fin = true → utf8Valid f.payload = true) ∧ (f.opcode = 8 → validateClose f = .ok) := by
  simp only [validate, ShapeOk, ite_violation_eq_ok_iff, ite_eq_right_iff, ne_eq, not_and, not_not, Bool.not_eq_false,
    Bool.not_eq_true]

/-- The close payload is valid exactly when it is empty, or a legal code with a valid reason (R158 to R161). -/
theorem validateClose_eq_ok_iff (hlen : f.payload.length = f.length.toNat) :
    validateClose f = .ok ↔
      f.length = 0 ∨ (2 ≤ f.length.toNat ∧ ∃ c0 c1 reason, f.payload = c0 :: c1 :: reason ∧
        closeCodeLegal (be16 c0 c1) = true ∧ utf8Valid reason = true) := by
  match hp : f.payload with
  | [] =>
    have h0 : f.length = 0 := BitVec.eq_of_toNat_eq (by simp [← hlen, hp])
    simp [validateClose_empty h0, h0]
  | [c0] =>
    have h1 : f.length = 1 := BitVec.eq_of_toNat_eq (by simp [← hlen, hp])
    simp [validateClose_one h1, h1, violation_ne_ok]
  | c0 :: c1 :: reason =>
    have h2 : 2 ≤ f.length.toNat := by simp [← hlen, hp]
    have h0 : f.length ≠ 0 := fun h => absurd h2 (by simp [h])
    rw [validateClose_code h2 hp, ite_violation_eq_ok_iff, ite_violation_eq_ok_iff, or_iff_right h0]
    simp [h2]

/-- A frame of a reserved opcode fails one of the first three checks, whose code is 1002 (R152 to R154). -/
theorem validate_of_isReservedOpcode (h : isReservedOpcode f.opcode = true) :
    ∃ k : ViolationKind, k.code = 1002 ∧ validate f = violation k := by
  cases hm : f.masked with
  | false => exact ⟨.unmasked, rfl, validate_unmasked hm⟩
  | true =>
    by_cases hs : ShapeOk f
    · exact ⟨.reservedOpcode, rfl, validate_reserved hm hs h⟩
    · exact ⟨.controlShape, rfl, validate_shape hm hs⟩

/-- A final, masked close of length 1 with reserved bits 0 fails check 6 (R160). -/
theorem validate_close_one (hm : f.masked = true) (hfin : f.fin = true) (hr : f.rsv = 0) (ho : f.opcode = 8)
    (hlen : f.length = 1) : validate f = violation .closeLength1 := by
  have hs : ShapeOk f := shapeOk_of_final_short hfin (by simp [hlen])
  rw [validate_rest hm hs (by rw [ho]; rfl) hr, ho, if_neg (by simp), if_pos rfl, validateClose_one hlen]

end

/-! ## The next state of a rejected frame (R196) -/

section
variable {i : Instr} (s : State)

/-- The next state of a rejected frame: the violation in VERDICT, its code latched in STATUS, and the final close to be
sent. -/
def rejected (k : ViolationKind) : State :=
  { s with verdict := violation k, status := k.code, conn := .closing, phase := .clSend }

theorem exec_of_validate_eq_violation {k : ViolationKind} (h : validate i.frame = violation k) :
    exec i s = .next (rejected s k) :=
  exec_of_violation s h

theorem exec_reservedOpcode (hm : i.ops.masked = true) (hs : ShapeOk i.frame)
    (ho : isReservedOpcode i.opcode = true) : exec i s = .next (rejected s .reservedOpcode) :=
  exec_of_validate_eq_violation s (validate_reserved hm hs ho)

theorem exec_reservedBits (hm : i.ops.masked = true) (hr : i.ops.rsv ≠ 0) (hs : ShapeOk i.frame)
    (ho : isReservedOpcode i.opcode = false) : exec i s = .next (rejected s .reservedBits) :=
  exec_of_validate_eq_violation s (validate_rsv hm hs ho hr)

end

/-! ## O35 to O37, O44, O45, O47, O49 -/

/-- Settles O35: the checks one by one, each in the statement's terms. -/
theorem validFrameFailsNoCheck : Obligations.ValidFrameFailsNoCheck := by
  intro f hlen
  rw [validate_eq_ok_iff, shapeOk_iff, isReservedOpcode_eq_false_iff, validateClose_eq_ok_iff hlen]

/-- Settles O36: a violation's code is its kind's, and the kinds are eight. -/
theorem violationCodesAre1002Or1007 : Obligations.ViolationCodesAre1002Or1007 := by
  intro f k c h
  rw [validate_code h]
  cases k with
  | invalidText => exact ⟨fun _ => rfl, fun h _ => absurd rfl h⟩
  | invalidCloseReason => exact ⟨fun _ => rfl, fun _ h => absurd rfl h⟩
  | _ => exact ⟨fun h => by simp at h, fun _ _ => rfl⟩

/-- Settles O44: with the earlier checks passed check 3 rejects, and otherwise an earlier check does, with the same
code. -/
theorem reservedOpcodesAreRejected : Obligations.ReservedOpcodesAreRejected := by
  refine ⟨fun f s hm => ?_, fun i s ho => ?_⟩
  · refine ⟨⟨exec_reservedOpcode s hm (shapeOk_of_data f (op := 3) (by decide)) rfl,
      exec_reservedOpcode s hm (shapeOk_of_data f (op := 4) (by decide)) rfl,
      exec_reservedOpcode s hm (shapeOk_of_data f (op := 5) (by decide)) rfl,
      exec_reservedOpcode s hm (shapeOk_of_data f (op := 6) (by decide)) rfl,
      exec_reservedOpcode s hm (shapeOk_of_data f (op := 7) (by decide)) rfl⟩, fun hfin hlen => ?_⟩
    have hs (op : BitVec 4) : ShapeOk (f.frame op) := shapeOk_of_final_short hfin hlen
    exact ⟨exec_reservedOpcode s hm (hs 11) rfl, exec_reservedOpcode s hm (hs 12) rfl,
      exec_reservedOpcode s hm (hs 13) rfl, exec_reservedOpcode s hm (hs 14) rfl, exec_reservedOpcode s hm (hs 15) rfl⟩
  · obtain ⟨k, hk, hv⟩ := validate_of_isReservedOpcode (f := i.frame) ((isReservedOpcode_iff_mem _).mpr ho)
    refine ⟨k, ?_⟩
    rw [exec_of_validate_eq_violation s hv, rejected, violation, hk]

/-- Settles O37: below 5000, and from 3000 on or in the registry. -/
theorem legalCloseCodes : Obligations.LegalCloseCodes := closeCodeLegal_iff

/-- Settles O45: the masking check is the first. -/
theorem unmaskedFramesAreRejectedFirst : Obligations.UnmaskedFramesAreRejectedFirst := fun _ s hm =>
  exec_of_validate_eq_violation s (validate_unmasked hm)

/-- Settles O47: the defined data opcodes have no shape to keep, and the control ones are final and short here. -/
theorem nonzeroReservedBitsAreRejected : Obligations.NonzeroReservedBitsAreRejected := by
  intro f s hm hr
  refine ⟨exec_reservedBits s hm hr (shapeOk_of_data f (op := 0) (by decide)) rfl,
    exec_reservedBits s hm hr (shapeOk_of_data f (op := 1) (by decide)) rfl,
    exec_reservedBits s hm hr (shapeOk_of_data f (op := 2) (by decide)) rfl, fun hfin hlen => ?_⟩
  have hs (op : BitVec 4) : ShapeOk (f.frame op) := shapeOk_of_final_short hfin hlen
  exact ⟨exec_reservedBits s hm hr (hs 8) rfl, exec_reservedBits s hm hr (hs 9) rfl,
    exec_reservedBits s hm hr (hs 10) rfl⟩

/-- Settles O49: the first five checks pass, and check 6 rejects the length. -/
theorem oneByteCloseIsRejected : Obligations.OneByteCloseIsRejected := fun f s hm hfin hr hlen =>
  exec_of_validate_eq_violation (i := .close f) s (validate_close_one hm hfin hr rfl hlen)

end Sys2Proof.Machine
end

section
/-! The connection driver (43_connection_driver.md R195 to R207): what a dispatch writes and leaves, the dropped pong, and
the close of the stream. -/

namespace Sys2Proof.Machine

/-! ## What a dispatch writes (R198 to R204) -/

section
variable {i : Instr} (s : State)

/-- The dispatch of a close writes STATUS, STATE and PHASE and nothing else (R199). -/
theorem peerClose_writes (f : FrameOps) :
    peerClose f s = { s with status := (peerClose f s).status, conn := .closing, phase := .clSend } := by
  unfold peerClose
  split <;> rfl

/-- A dispatch writes STATUS, STATE, PHASE, TX_BUF and F_OPCODE and nothing else (R198 to R204). -/
theorem dispatchOf_writes (i : Instr) :
    dispatchOf i s = { s with
      status := (dispatchOf i s).status, conn := (dispatchOf i s).conn, phase := (dispatchOf i s).phase,
      txBuf := (dispatchOf i s).txBuf, fOpcode := (dispatchOf i s).fOpcode } := by
  cases i with
  | close f => rw [dispatchOf, peerClose_writes]
  | _ => rfl

/-- Only the dispatch of a close moves STATUS and STATE (R199). -/
theorem dispatchOf_keeps_status_conn (h : ∀ f, i ≠ .close f) :
    (dispatchOf i s).status = s.status ∧ (dispatchOf i s).conn = s.conn := by
  cases i with
  | close f => exact absurd rfl (h f)
  | _ => exact ⟨rfl, rfl⟩

/-- Only the dispatch of a ping moves F_OPCODE (R198). -/
theorem dispatchOf_keeps_fOpcode (h : ∀ f, i ≠ .ping f) : (dispatchOf i s).fOpcode = s.fOpcode := by
  cases i with
  | ping f => exact absurd rfl (h f)
  | close f => rw [dispatchOf, peerClose_writes]
  | _ => rfl

end

/-! ## The pong, and the phase CL_CLOSE -/

/-- A final, masked pong of at most 125 bytes with reserved bits 0 fails no check (R162). -/
theorem validate_pong {f : FrameOps} (hm : f.masked = true) (hfin : f.fin = true) (hr : f.rsv = 0)
    (hlen : f.len.toNat ≤ 125) : validate (f.frame 10) = .ok :=
  validate_rest (f := f.frame 10) hm (shapeOk_of_final_short hfin hlen) rfl hr

/-- A step in CL_CLOSE is the CLOSE transaction (R207). -/
theorem step_clClose {s : State} (hconn : s.conn = .closing) (hp : s.phase = .clClose) (he : s.err = .none) :
    step s = .next (stepClClose s) := by
  rw [step_of_phase (by rw [hp, hconn]; rfl) he (by rw [hp]; decide), hp]
  rfl

/-! ## O39, O42, O57 -/

/-- Settles O39: a violation is latched and not dispatched, and the dispatch of a valid frame writes only its
registers. -/
theorem checkWritesOnlyItsRegisters : Obligations.CheckWritesOnlyItsRegisters := by
  intro i s
  cases hv : validate i.frame with
  | ok =>
    exact ⟨_, exec_of_ok s hv, dispatchOf_writes _ i, nofun, fun h _ => dispatchOf_keeps_status_conn _ h,
      dispatchOf_keeps_fOpcode _⟩
  | err k c =>
    have hcode : c = 1002 ∨ c = 1007 := validate_code hv ▸ k.code_cases
    refine ⟨_, exec_of_violation s hv, rfl, ?_, nofun, fun _ => rfl⟩
    rintro _ _ ⟨⟩
    exact ⟨hcode, rfl, rfl, rfl, rfl, rfl⟩

/-- Settles O42: a valid pong's dispatch drops it. -/
theorem pongIsDropped : Obligations.PongIsDropped := fun f s hm hfin hr hlen =>
  exec_of_ok (i := .pong f) s (validate_pong hm hfin hr hlen)

/-- Settles O57: the step is the CLOSE transaction, which the stream answers. -/
theorem streamIsClosedAtTheEnd : Obligations.StreamIsClosedAtTheEnd := by
  intro s hconn hp he hans
  rw [step_clClose hconn hp he, stepClClose, if_pos hans]

end Sys2Proof.Machine
end

section
/-! The wire bytes of an instruction and the decoder (30_encoding.md R70 to R81, R90; 40_frame_decode.md R112, R113): the
header as an equation between byte strings, and the decoder's answer by the header in front of a string. -/

namespace Sys2Proof

/-! ## Masking twice (R110) -/

theorem maskFrom_maskFrom (k : Key) (i : Nat) (s : List Byte) : maskFrom k i (maskFrom k i s) = s := by
  induction s generalizing i with
  | nil => rfl
  | cons b s ih => rw [maskFrom, maskFrom, ih, BitVec.xor_assoc, BitVec.xor_self, BitVec.xor_zero]

@[simp] theorem unmask_unmask (s : List Byte) (key : Option Key) : unmask (unmask s key) key = s := by
  cases key with
  | none => rfl
  | some k => exact maskFrom_maskFrom k 0 s

/-- Settles O22: each byte is XORed twice with one lane. -/
theorem maskingTwiceIsIdentity : Obligations.MaskingTwiceIsIdentity := fun p k => maskFrom_maskFrom k 0 p

/-! ## The length fields (R74) -/

/-- The three forms by the 7-bit field. -/
theorem LenForm.ofLen7_cases (n : BitVec 7) :
    (n.toNat ≤ 125 ∧ LenForm.ofLen7 n = .short) ∨ (n = 126 ∧ LenForm.ofLen7 n = .ext16) ∨
      (n = 127 ∧ LenForm.ofLen7 n = .ext64) := by
  revert n; decide

@[simp] theorem encodeExt_length (form : LenForm) (n : BitVec 64) : (encodeExt form n).length = form.extBytes := by
  cases form <;> rfl

@[simp] theorem encodeKey_length (key : Option Key) : (encodeKey key).length = if key.isSome then 4 else 0 := by
  cases key <;> rfl

/-- The length fields of a string: the 7-bit field, the length that its form holds, and the extended length's bytes. -/
structure LengthFields (len7 : BitVec 7) (len : BitVec 64) : Prop where
  holds : (LenForm.ofLen7 len7).holds len = true
  field : (LenForm.ofLen7 len7).len7 len = len7

theorem LengthFields.of_holds {form : LenForm} {len : BitVec 64} (h : form.holds len = true) :
    LengthFields (form.len7 len) len := by
  constructor <;> rw [LenForm.ofLen7_len7 h]
  exact h

theorem lengthFields_short {len7 : BitVec 7} {len : BitVec 64} (h : len7.toNat ≤ 125) :
    LengthFields len7 len ↔ len7.setWidth 64 = len := by
  have hform := LenForm.ofLen7_of_le h
  constructor
  · rintro ⟨hholds, hfield⟩
    rw [hform] at hholds hfield
    have hlen : len.toNat ≤ 125 := by simpa [LenForm.holds] using hholds
    rw [← hfield, LenForm.len7]
    apply BitVec.eq_of_toNat_eq
    rw [BitVec.toNat_setWidth, BitVec.toNat_setWidth]
    omega
  · rintro rfl
    constructor <;> rw [hform]
    · simp only [LenForm.holds, BitVec.toNat_setWidth, decide_eq_true_eq]
      omega
    · rw [LenForm.len7, BitVec.setWidth_setWidth_of_le _ (by decide), BitVec.setWidth_eq]

theorem lengthFields_ext16 {len : BitVec 64} : LengthFields 126 len ↔ len.toNat ≤ 65535 :=
  ⟨fun h => of_decide_eq_true h.holds, fun h => ⟨decide_eq_true h, rfl⟩⟩

theorem lengthFields_ext64 (len : BitVec 64) : LengthFields 127 len := ⟨rfl, rfl⟩

/-- The decoder reads a length exactly where its fields stand in front. -/
theorem decodeLength_eq_some_iff {len7 : BitVec 7} {len : BitVec 64} {s r : List Byte} :
    decodeLength len7 s = some (len, r) ↔
      LengthFields len7 len ∧ s = encodeExt (LenForm.ofLen7 len7) len ++ r := by
  obtain ⟨hle, hform⟩ | ⟨rfl, hform⟩ | ⟨rfl, hform⟩ := LenForm.ofLen7_cases len7
  · rw [lengthFields_short hle]
    simp [decodeLength, hform, encodeExt]
  · rw [lengthFields_ext16, hform]
    constructor
    · intro h
      match s, h with
      | e0 :: e1 :: r, rfl =>
        have hv : ((be16 e0 e1).setWidth 64).toNat = (be16 e0 e1).toNat :=
          BitVec.toNat_setWidth_of_le (by decide)
        have := (be16 e0 e1).isLt
        rw [hv, encodeExt, BitVec.setWidth_setWidth_of_le _ (by decide), BitVec.setWidth_eq, be16bytes_be16]
        exact ⟨by omega, rfl⟩
    · rintro ⟨hlen, rfl⟩
      have hv : ((len.setWidth 16).setWidth 64) = len := by
        apply BitVec.eq_of_toNat_eq
        simp only [BitVec.toNat_setWidth]
        omega
      show some ((be16 _ _).setWidth 64, r) = _
      rw [be16_be16bytes, hv]
  · simp only [hform, lengthFields_ext64, true_and]
    constructor
    · intro h
      match s, h with
      | e0 :: e1 :: e2 :: e3 :: e4 :: e5 :: e6 :: e7 :: r, rfl => rw [encodeExt, be64bytes_be64]; rfl
    · rintro rfl
      show some (be64 (be64bytes len), r) = _
      rw [be64_be64bytes]

/-! ## The key (R79, R81) -/

/-- The decoder reads a key exactly where one is due and stands in front. -/
theorem decodeKey_eq_some_iff {present : Bool} {key : Option Key} {s r : List Byte} :
    decodeKey present s = some (key, r) ↔ key.isSome = present ∧ s = encodeKey key ++ r := by
  cases present with
  | false => cases key <;> simp [decodeKey, encodeKey]
  | true =>
    constructor
    · intro h
      match s, h with
      | k0 :: k1 :: k2 :: k3 :: r, rfl => exact ⟨rfl, rfl⟩
    · rintro ⟨hkey, rfl⟩
      obtain ⟨k, rfl⟩ := Option.isSome_iff_exists.mp hkey
      rfl

/-! ## The header -/

/-- A whole header at the front of a string (R70, R75): its two bytes `b0` and `b1`, the length, the key when one is on
the wire, and the bytes `r` after it. -/
structure HeaderOf (p : Params) (s : List Byte) (b0 b1 : Byte) (len : BitVec 64) (key : Option Key) (r : List Byte) :
    Prop where
  fields : LengthFields (len7Bits b1) len
  keyed  : key.isSome = keyed p (maskBit b1)
  bytes  : s = b0 :: b1 :: (encodeExt (LenForm.ofLen7 (len7Bits b1)) len ++ (encodeKey key ++ r))

/-- The length in bytes of the header whose second byte is `b1` (R75). -/
def headerBytes (p : Params) (b1 : Byte) : Nat :=
  headerLength (LenForm.ofLen7 (len7Bits b1)) (keyed p (maskBit b1))

/-- The instruction that the decoder makes of a header and the payload's bytes on the wire (R109, R112). -/
def decodedInstr (b0 b1 : Byte) (len : BitVec 64) (key : Option Key) (raw : List Byte) : Instr :=
  Instr.ofOpcode (opcodeBits b0)
    { fin := finBit b0, rsv := rsvBits b0, masked := maskBit b1, form := LenForm.ofLen7 (len7Bits b1)
      len := len, key := key, payload := unmask raw key }

section
variable {p : Params} {s r : List Byte} {b0 b1 : Byte} {len : BitVec 64} {key : Option Key}

/-- More bytes stand after the header. -/
theorem HeaderOf.append (h : HeaderOf p s b0 b1 len key r) (more : List Byte) :
    HeaderOf p (s ++ more) b0 b1 len key (r ++ more) :=
  ⟨h.fields, h.keyed, by simp [h.bytes]⟩

theorem HeaderOf.length (h : HeaderOf p s b0 b1 len key r) : s.length = headerBytes p b1 + r.length := by
  rw [h.bytes, headerBytes, headerLength, ← h.keyed]
  simp
  omega

/-- With a whole header in front, the decoder's answer depends on the length and the number of bytes left (R106, R112). -/
theorem decode_of_header (h : HeaderOf p s b0 b1 len key r) :
    decode p s =
      if p.maxPayload.toNat < len.toNat then .tooLarge len (headerBytes p b1)
      else if r.length < len.toNat then .needMore
      else .complete (decodedInstr b0 b1 len key (r.take len.toNat)) (headerBytes p b1 + len.toNat) := by
  have hlen := decodeLength_eq_some_iff.mpr ⟨h.fields, Eq.refl (encodeExt _ len ++ (encodeKey key ++ r))⟩
  have hkey := decodeKey_eq_some_iff.mpr ⟨h.keyed, Eq.refl (encodeKey key ++ r)⟩
  rw [h.bytes, decode, hlen]
  simp only [hkey]
  rfl

/-- A whole header stands in front, or the decoder needs more bytes. -/
theorem decode_cases (p : Params) (s : List Byte) :
    decode p s = .needMore ∨ ∃ b0 b1 len key r, HeaderOf p s b0 b1 len key r := by
  match s with
  | [] | [_] => exact .inl rfl
  | b0 :: b1 :: r =>
    cases hlen : decodeLength (len7Bits b1) r with
    | none => exact .inl (by rw [decode, hlen])
    | some lr =>
      obtain ⟨len, r⟩ := lr
      cases hkey : decodeKey (keyed p (maskBit b1)) r with
      | none => exact .inl (by rw [decode, hlen]; simp only [hkey])
      | some kr =>
        obtain ⟨key, r⟩ := kr
        obtain ⟨hfields, rfl⟩ := decodeLength_eq_some_iff.mp hlen
        obtain ⟨hkeyed, rfl⟩ := decodeKey_eq_some_iff.mp hkey
        exact .inr ⟨b0, b1, len, key, r, hfields, hkeyed, rfl⟩

/-- A string decodes whole exactly when a header stands in front whose length fits and whose payload has arrived. -/
theorem decode_eq_complete_iff {i : Instr} {n : Nat} :
    decode p s = .complete i n ↔
      ∃ b0 b1 len key r, HeaderOf p s b0 b1 len key r ∧ len.toNat ≤ p.maxPayload.toNat ∧ len.toNat ≤ r.length ∧
        i = decodedInstr b0 b1 len key (r.take len.toNat) ∧ n = headerBytes p b1 + len.toNat := by
  constructor
  · intro h
    obtain hmore | ⟨b0, b1, len, key, r, hhead⟩ := decode_cases p s
    · rw [hmore] at h; cases h
    · rw [decode_of_header hhead] at h
      split at h
      · cases h
      · split at h <;> cases h
        exact ⟨b0, b1, len, key, r, hhead, by omega, by omega, rfl, rfl⟩
  · rintro ⟨b0, b1, len, key, r, hhead, hmax, hlen, rfl, rfl⟩
    rw [decode_of_header hhead, if_neg (by omega), if_neg (by omega)]

/-- A string decodes to a length too large exactly when a header with that length stands in front. -/
theorem decode_eq_tooLarge_iff {n : Nat} :
    decode p s = .tooLarge len n ↔
      ∃ b0 b1 key r, HeaderOf p s b0 b1 len key r ∧ p.maxPayload.toNat < len.toNat ∧ n = headerBytes p b1 := by
  constructor
  · intro h
    obtain hmore | ⟨b0, b1, len', key, r, hhead⟩ := decode_cases p s
    · rw [hmore] at h; cases h
    · rw [decode_of_header hhead] at h
      split at h
      · cases h
        exact ⟨b0, b1, key, r, hhead, by assumption, rfl⟩
      · split at h <;> cases h
  · rintro ⟨b0, b1, key, r, hhead, hmax, rfl⟩
    rw [decode_of_header hhead, if_pos hmax]

end

/-! ## Well-formed instructions (R74, R79, R106) -/

/-- A well-formed instruction: its form holds its length, its payload is that long, it has a key exactly when one is on
the wire, and its length fits the buffer. -/
theorem wellFormed_iff {p : Params} {i : Instr} :
    WellFormed p i ↔
      i.ops.form.holds i.ops.len = true ∧ i.ops.payload.length = i.ops.len.toNat ∧
        i.ops.key.isSome = keyed p i.ops.masked ∧ i.ops.len.toNat ≤ p.maxPayload.toNat := by
  simp only [WellFormed, FrameOps.illFormed, keyed]
  split
  · simp_all
  · split
    · simp_all
    · split
      · simp_all
      · split <;> simp_all

theorem length_encodeInstr (i : Instr) :
    (encodeInstr i).length = headerLength i.ops.form i.ops.key.isSome + i.ops.payload.length := by
  simp [encodeInstr, headerLength]
  omega

/-! ## O16 to O20 -/

/-- Settles O16, by running the decoder on each word. -/
theorem opcodeWordsDecode : Obligations.OpcodeWordsDecode :=
  ⟨by decide, by decide, by decide +kernel, by decide, by decide, by decide +kernel, by decide, by decide⟩

/-- The bytes of a well-formed instruction are a header and the payload on the wire. -/
theorem headerOf_encodeInstr {p : Params} {i : Instr} (h : WellFormed p i) (rest : List Byte) :
    HeaderOf p (encodeInstr i ++ rest) (byte0 i.ops.fin i.ops.rsv i.opcode)
      (byte1 i.ops.masked (i.ops.form.len7 i.ops.len)) i.ops.len i.ops.key (unmask i.ops.payload i.ops.key ++ rest) := by
  obtain ⟨hform, -, hkey, -⟩ := wellFormed_iff.mp h
  refine ⟨?_, ?_, ?_⟩
  · rw [len7Bits_byte1]
    exact LengthFields.of_holds hform
  · rw [maskBit_byte1, hkey]
  · rw [len7Bits_byte1, LenForm.ofLen7_len7 hform]
    simp [encodeInstr]

/-- Settles O17: the bytes are a header whose fields are the instruction's, and masking twice gives the payload back. -/
theorem decodeOfEncodedInstruction : Obligations.DecodeOfEncodedInstruction := by
  intro p i rest h
  obtain ⟨hform, hpay, hkey, hmax⟩ := wellFormed_iff.mp h
  have hraw : (unmask i.ops.payload i.ops.key).length = i.ops.len.toNat := (unmask_length _ _).trans hpay
  refine decode_eq_complete_iff.mpr ⟨_, _, _, _, _, headerOf_encodeInstr h rest, hmax, ?_, ?_, ?_⟩
  · rw [List.length_append, hraw]
    omega
  · rw [← hraw, List.take_left, decodedInstr]
    simp only [finBit_byte0, rsvBits_byte0, opcodeBits_byte0, maskBit_byte1, len7Bits_byte1, LenForm.ofLen7_len7 hform,
      unmask_unmask]
    exact (Instr.ofOpcode_opcode_ops i).symm
  · rw [length_encodeInstr, headerBytes, len7Bits_byte1, maskBit_byte1, LenForm.ofLen7_len7 hform, hkey, hpay]

/-- A decoded instruction is well-formed. -/
theorem wellFormed_decodedInstr {p : Params} {s r : List Byte} {b0 b1 : Byte} {len : BitVec 64} {key : Option Key}
    (h : HeaderOf p s b0 b1 len key r) (hmax : len.toNat ≤ p.maxPayload.toNat) (hlen : len.toNat ≤ r.length) :
    WellFormed p (decodedInstr b0 b1 len key (r.take len.toNat)) := by
  rw [wellFormed_iff, decodedInstr, Instr.ops_ofOpcode]
  exact ⟨h.fields.holds, by simpa using hlen, h.keyed, hmax⟩

/-- Settles O18: the header's bytes and the payload's are the instruction's. -/
theorem encodeOfDecodedBytes : Obligations.EncodeOfDecodedBytes := by
  intro p s i n h
  obtain ⟨b0, b1, len, key, r, hhead, hmax, hlen, rfl, rfl⟩ := decode_eq_complete_iff.mp h
  refine ⟨wellFormed_decodedInstr hhead hmax hlen, by rw [hhead.length]; omega, ?_⟩
  have hsplit : encodeInstr (decodedInstr b0 b1 len key (r.take len.toNat)) ++ r.drop len.toNat = s := by
    rw [encodeInstr, decodedInstr, Instr.ops_ofOpcode, Instr.opcode_ofOpcode, byte0_fields, hhead.fields.field,
      byte1_fields, unmask_unmask, hhead.bytes]
    simp
  have hn : headerBytes p b1 + len.toNat = (encodeInstr (decodedInstr b0 b1 len key (r.take len.toNat))).length := by
    rw [length_encodeInstr, decodedInstr, Instr.ops_ofOpcode, hhead.keyed, unmask_length, List.length_take_of_le hlen]
    rfl
  rw [hn, ← hsplit, List.take_left]

/-! ## Prefix stability (R113) -/

section
variable {p : Params} {s : List Byte} (more : List Byte)

theorem decode_append_of_complete {i : Instr} {n : Nat} (h : decode p s = .complete i n) :
    decode p (s ++ more) = .complete i n := by
  obtain ⟨b0, b1, len, key, r, hhead, hmax, hlen, rfl, rfl⟩ := decode_eq_complete_iff.mp h
  exact decode_eq_complete_iff.mpr ⟨b0, b1, len, key, r ++ more, hhead.append more, hmax,
    by rw [List.length_append]; omega, by rw [List.take_append_of_le_length hlen], rfl⟩

theorem decode_append_of_tooLarge {len : BitVec 64} {n : Nat} (h : decode p s = .tooLarge len n) :
    decode p (s ++ more) = .tooLarge len n := by
  obtain ⟨b0, b1, key, r, hhead, hmax, rfl⟩ := decode_eq_tooLarge_iff.mp h
  exact decode_eq_tooLarge_iff.mpr ⟨b0, b1, key, r ++ more, hhead.append more, hmax, rfl⟩

end

/-- Settles O19: the header in front of a string stays there when more bytes follow. -/
theorem decodeBytesIsPrefixStable : Obligations.DecodeBytesIsPrefixStable := by
  intro p s more
  unfold decodeBytes
  cases h : decode p s with
  | needMore => exact ⟨nofun, nofun⟩
  | tooLarge len n => rw [decode_append_of_tooLarge more h]; exact ⟨nofun, fun _ _ h => h⟩
  | complete i n => rw [decode_append_of_complete more h]; exact ⟨fun _ _ h => h, nofun⟩

end Sys2Proof

namespace Sys2Proof.Machine

/-! ## The frame encoder and the decoder (R131 to R133, R137) -/

/-- The minimal length form (R132, R133). -/
def minimalForm (n : Nat) : LenForm := if n ≤ 125 then .short else if n ≤ 65535 then .ext16 else .ext64

theorem minimalForm_holds (len : BitVec 64) : (minimalForm len.toNat).holds len = true := by
  unfold minimalForm
  split
  · simpa [LenForm.holds]
  · split
    · simpa [LenForm.holds]
    · rfl

/-- The block's header is byte 0, byte 1 with MASK 0, and the extended length of the minimal form (R131 to R133). -/
theorem frameHeader_eq (fin : Bool) (op : BitVec 4) (len : BitVec 64) :
    frameHeader fin op len.toNat =
      [byte0 fin 0 op, byte1 false ((minimalForm len.toNat).len7 len)] ++ encodeExt (minimalForm len.toNat) len := by
  unfold frameHeader minimalForm
  split
  next hshort =>
    have : BitVec.ofNat 8 len.toNat = byte1 false (len.setWidth 7) := by
      apply BitVec.eq_of_toNat_eq
      rw [byte1, BitVec.toNat_append]
      simp
      omega
    simp [LenForm.len7, encodeExt, this]
  next =>
    split
    · simp [LenForm.len7, encodeExt, BitVec.ofNat_toNat]
      decide
    · simp [LenForm.len7, encodeExt, BitVec.ofNat_toNat]
      decide

/-- The unmasked instruction in the minimal form that the encoder writes for a frame (R130 to R134). -/
def minimalInstr (f : Frame) : Instr :=
  Instr.ofOpcode f.opcode
    { fin := f.fin, rsv := 0, masked := false, form := minimalForm f.length.toNat, len := f.length, key := none
      payload := f.payload }

theorem encodeFrame_eq_encodeInstr {f : Frame} (hlen : f.payload.length = f.length.toNat) :
    encodeFrame f = encodeInstr (minimalInstr f) := by
  rw [encodeFrame, hlen, frameHeader_eq, encodeInstr, minimalInstr, Instr.ops_ofOpcode, Instr.opcode_ofOpcode]
  simp [encodeKey, unmask]

/-- Settles O20: under `Conditional` the encoder's bytes are those of a well-formed instruction, and under `Unconditional`
the decoder takes the first four bytes of the payload for a key. -/
theorem encodedFrameDecodesBack : Obligations.EncodedFrameDecodesBack := by
  refine ⟨fun p f hp hrsv hlen hmax => ?_, fun p hp hmax => ?_⟩
  · have hwf : WellFormed p (minimalInstr f) := by
      rw [wellFormed_iff, minimalInstr, Instr.ops_ofOpcode]
      exact ⟨minimalForm_holds f.length, hlen, by simp [keyed, hp], hmax⟩
    have hdec := decodeOfEncodedInstruction p (minimalInstr f) [] hwf
    rw [List.append_nil] at hdec
    rw [encodeFrame_eq_encodeInstr hlen, decodeBytes, hdec, minimalInstr, DecodeResult.map, Instr.frame,
      Instr.ops_ofOpcode, Instr.opcode_ofOpcode, FrameOps.frame, ← hrsv]
  · have hhead : HeaderOf p [0x81, 0x05, 0x68, 0x65, 0x6c, 0x6c, 0x6f] 0x81 0x05 5
        (some ⟨0x68, 0x65, 0x6c, 0x6c⟩) [0x6f] :=
      ⟨⟨rfl, rfl⟩, by simp [keyed, hp], rfl⟩
    show (decode p [0x81, 0x05, 0x68, 0x65, 0x6c, 0x6c, 0x6f]).map Instr.frame = .needMore
    have h5 : (5 : BitVec 64).toNat = 5 := rfl
    rw [decode_of_header hhead, h5, if_neg (Nat.not_lt.mpr hmax), if_pos (by decide)]
    rfl

/-! ## Fetching an instruction (R35, R90) -/

/-- The frame register set gives back the well-formed instruction that was loaded into it. -/
theorem fetchInstr_loadFrame {s : State} {i : Instr} (h : WellFormed s.params i) : fetchInstr (loadFrame i s) = i := by
  obtain ⟨hform, -, hkey, -⟩ := wellFormed_iff.mp h
  have hfetch : (if keyed s.params i.ops.masked then some (i.ops.key.getD s.fKey) else none) = i.ops.key := by
    rw [← hkey]
    cases i.ops.key <;> rfl
  show Instr.ofOpcode i.opcode
    { i.ops with
      form := LenForm.ofLen7 (i.ops.form.len7 i.ops.len)
      key := if keyed s.params i.ops.masked then some (i.ops.key.getD s.fKey) else none } = i
  rw [LenForm.ofLen7_len7 hform, hfetch]
  exact Instr.ofOpcode_opcode_ops i

theorem step_of_atCheck {s : State} (h : AtCheck s) : step s = exec (fetchInstr s) s := by
  obtain ⟨hconn, hp, he⟩ := h
  exact step_of_check (by rw [hp, hconn]; rfl) he hp

/-- Settles O13: CHECK runs what it fetches, and fetching gives back what was loaded. -/
theorem stepRunsTheDecodedInstruction : Obligations.StepRunsTheDecodedInstruction := by
  refine ⟨fun s h => step_of_atCheck h, fun s i ⟨hconn, hp, he⟩ hwf => ?_⟩
  rw [step_of_atCheck (s := loadFrame i s) ⟨hconn, hp, he⟩, fetchInstr_loadFrame hwf]

/-- Settles O14: a word that decodes is placed as a well-formed instruction in CHECK. -/
theorem tableWordRunsAsTheNextStep : Obligations.TableWordRunsAsTheNextStep := by
  intro w i h
  rw [decodeTableWord, if_pos rfl] at h
  cases hdec : decode Params.normative (tableBytes w) with
  | needMore | tooLarge len n => rw [hdec] at h; cases h
  | complete j n =>
    rw [hdec] at h
    cases h
    have hplace : State.reset.withFetchWord 16 w =
        { loadFrame i State.reset with conn := .opened, phase := .check, err := .none } := by
      rw [State.withFetchWord, placeWord, if_pos rfl]
      simp only [show State.reset.params = Params.normative from rfl, hdec]
    rw [hplace]
    exact stepRunsTheDecodedInstruction.2 { State.reset with conn := .opened, phase := .check, err := .none } i
      ⟨rfl, rfl, rfl⟩ (encodeOfDecodedBytes _ _ _ _ hdec).1

/-- Settles O15: the invariant says of the frame registers what well-formedness says of the instruction. -/
theorem checkedInstructionIsWellFormed : Obligations.CheckedInstructionIsWellFormed := by
  intro s hinv hp
  obtain ⟨hpay, hmax⟩ := hinv.frame_whole (.inl hp)
  refine ⟨?_, ?_⟩
  · rw [wellFormed_iff, fetchInstr, Instr.ops_ofOpcode]
    refine ⟨hinv.length_form (.inr (.inr hp)), hpay, ?_, hmax⟩
    cases keyed s.params s.fMask <;> rfl
  · rw [Instr.frame, fetchInstr, Instr.ops_ofOpcode, Instr.opcode_ofOpcode]
    rfl

end Sys2Proof.Machine
end

section
/-! What each phase writes and leaves, said once for the whole machine (10_state.md R23 to R31, 20_memory.md R51, R52): the
outcome of one read transaction, the registers of each phase, and the frame facts that follow. -/

namespace Sys2Proof.Machine

/-! ## One transaction of a read (R53) -/

/-- `u` is `s` past one transaction of a read of `n` bytes: nothing but the read's own registers has moved. -/
structure ReadStep (n : BitVec 64) (s u : State) : Prop where
  regs : u = { s with rxNeed := u.rxNeed, rxAcc := u.rxAcc, rxPos := u.rxPos, rxCuts := u.rxCuts }
  again : u.rxCuts.again = s.rxCuts.again
  pos_le : s.rxPos ≤ u.rxPos
  in_bounds : s.rxTail = .none → s.rxPos ≤ s.rxBytes.length → u.rxPos ≤ s.rxBytes.length
  gathered : (s.rxNeed ≠ 0 → s.rxNeed.toNat + s.rxAcc.length = n.toNat) →
    u.rxNeed.toNat + u.rxAcc.length = n.toNat

/-- Beginning a read moves no byte. -/
theorem readStep_beginRead (n : BitVec 64) (s : State) : ReadStep n s (beginRead n s) where
  regs := by rw [beginRead_rxPos, beginRead_rxCuts]; exact beginRead_eq n s
  again := by simp
  pos_le := by simp
  in_bounds := by simp
  gathered := fun h => by
    by_cases hn : s.rxNeed = 0
    · rw [beginRead_fresh hn]; rfl
    · rw [beginRead_under_way hn]; exact h hn

/-- An end answer of the stream is used up. -/
theorem ReadStep.useAnswer {n : BitVec 64} {s u : State} (h : ReadStep n s u) :
    ReadStep n s { u with rxCuts := u.rxCuts.rest } where
  regs := by rw [h.regs]
  again := by rw [Answers.rest_again, h.again]
  pos_le := h.pos_le
  in_bounds := h.in_bounds
  gathered := h.gathered

/-- The bytes of an answer are gathered. -/
theorem ReadStep.takeData {n : BitVec 64} {s u : State} {c : List Byte} (h : ReadStep n s u)
    (ha : rxAnswer u.rxNeed.toNat u = .data c) : ReadStep n s (takeData c u) := by
  obtain ⟨hle, hc⟩ := rxAnswer_data ha
  have hbytes : u.rxBytes = s.rxBytes := by rw [h.regs]
  have htail : u.rxTail = s.rxTail := by rw [h.regs]
  refine ⟨?_, ?_, ?_, fun ht hp => ?_, fun hg => ?_⟩
  · conv_lhs => rw [h.regs]
    rfl
  · simp [h.again]
  · simpa using le_trans h.pos_le (Nat.le_add_right _ _)
  · have := rxNext_in_bounds (s := u) (by rw [htail, ht]) (by rw [hbytes]; exact h.in_bounds ht hp) c.length
    rwa [← hc, hbytes] at this
  · have := h.gathered hg
    rw [takeData_need_toNat hle, takeData_rxAcc, List.length_append]
    omega

/-- What a read transaction does: the read goes on, or it raises, or it is done and `cont` takes its bytes. -/
theorem streamRead_outcomes (n : BitVec 64) (cont : List Byte → State → State) (s : State) :
    ∃ u, ReadStep n s u ∧
      (streamRead n cont s = u ∨ (∃ cause, streamRead n cont s = errorEntry (.ioFailure cause) u) ∨
        (u.rxNeed = 0 ∧ streamRead n cont s = cont u.rxAcc u)) := by
  have hb := readStep_beginRead n s
  obtain ⟨c, ha, ⟨hz, h⟩ | ⟨-, h⟩⟩ | ⟨-, h⟩ | ⟨-, h⟩ | ⟨-, h⟩ := streamRead_cases n cont s
  · exact ⟨_, hb.takeData ha, .inr (.inr ⟨hz, h⟩)⟩
  · exact ⟨_, hb.takeData ha, .inl h⟩
  · exact ⟨_, hb.useAnswer, .inr (.inl ⟨_, by rw [h, beginRead_rxCuts]⟩)⟩
  · exact ⟨_, hb.useAnswer, .inr (.inl ⟨_, by rw [h, beginRead_rxCuts]⟩)⟩
  · exact ⟨_, hb, .inl h⟩

/-! ## The registers of each phase -/

/-- `u` with the registers that only phase `p` writes, taken from `v` (R192, R101 to R109, R206, R207). -/
def ownRegisters (p : Phase) (v u : State) : State :=
  match p with
  | .hsSend => { u with conn := v.conn }
  | .rxHdr => { u with fFin := v.fFin, fRsv := v.fRsv, fOpcode := v.fOpcode, fMask := v.fMask, fLen7 := v.fLen7 }
  | .rxExt => { u with fLen := v.fLen }
  | .rxKey => { u with fKey := v.fKey }
  | .rxPay => { u with fPayload := v.fPayload }
  | .clSend => { u with closeSent := v.closeSent }
  | .clClose => { u with streamClosed := v.streamClosed, conn := v.conn }
  | .hsStart | .check | .reply | .done => u

/-- `u` with the registers that many phases write, taken from `v`: PHASE, ERR, TX_BUF and the two streams. -/
def sharedRegisters (v u : State) : State :=
  { u with
    phase := v.phase, err := v.err, txBuf := v.txBuf, rxNeed := v.rxNeed, rxAcc := v.rxAcc, rxPos := v.rxPos
    rxCuts := v.rxCuts, txLog := v.txLog, txAnswers := v.txAnswers, txPartial := v.txPartial }

/-- From `u` to `v` phase `p` writes no register but its own and the shared ones. -/
def WritesOwn (p : Phase) (u v : State) : Prop := v = sharedRegisters v (ownRegisters p v u)

theorem streamRead_writesOwn {p : Phase} {n : BitVec 64} {cont : List Byte → State → State}
    (hcont : ∀ c u, WritesOwn p u (cont c u)) (s : State) : WritesOwn p s (streamRead n cont s) := by
  obtain ⟨u, hu, h | ⟨cause, h⟩ | ⟨-, h⟩⟩ := streamRead_outcomes n cont s <;> rw [h]
  · rw [hu.regs]
    cases p <;> rfl
  · rw [hu.regs]
    cases p <;> rfl
  · refine (hcont _ _).trans ?_
    generalize cont u.rxAcc u = v
    rw [hu.regs]
    cases p <;> rfl

theorem phaseStep_writesOwn (p : Phase) (s : State) : WritesOwn p s (phaseStep p s) := by
  cases p with
  | hsStart => simp only [phaseStep, stepHsStart]; split <;> rfl
  | hsSend | reply | clSend =>
    rw [phaseStep_of_isWriting rfl]
    obtain ⟨-, h⟩ | ⟨r, -, h⟩ | ⟨k, r, -, h⟩ := streamWrite_cases _ _ <;> rw [h] <;> rfl
  | rxHdr => exact streamRead_writesOwn (fun c u => by unfold takeHeader; split <;> rfl) s
  | rxExt =>
    simp only [phaseStep, stepRxExt]
    split
    · rfl
    · exact streamRead_writesOwn (fun c u => by unfold takeExt16; split <;> rfl) s
    · exact streamRead_writesOwn (p := .rxExt) (cont := takeExt64) (fun _ _ => rfl) s
  | rxKey =>
    simp only [phaseStep, stepRxKey]
    split
    · exact streamRead_writesOwn (fun c u => by unfold takeKey; split <;> rfl) s
    · rfl
  | rxPay =>
    simp only [phaseStep, stepRxPay]
    split
    · rfl
    · split
      · rfl
      · exact streamRead_writesOwn (p := .rxPay) (cont := takePayload) (fun _ _ => rfl) s
  | clClose => simp only [phaseStep, stepClClose]; split <;> rfl
  | check | done => rfl

/-! ## The streams (R51, R52, R291) -/

/-- From `s` to `t` the RX stream goes forward, within the bytes sent, and the answers it repeats stay. -/
structure RxForward (s t : State) : Prop where
  again : t.rxCuts.again = s.rxCuts.again
  pos_le : s.rxPos ≤ t.rxPos
  in_bounds : s.rxTail = .none → s.rxPos ≤ s.rxBytes.length → t.rxPos ≤ s.rxBytes.length

theorem KeepsRx.rxForward {s t : State} (h : KeepsRx s t) : RxForward s t :=
  ⟨by rw [h.cuts], by rw [h.pos], by rw [h.pos]; exact fun _ h => h⟩

theorem streamRead_rxForward {n : BitVec 64} {cont : List Byte → State → State} (hcont : ∀ c u, KeepsRx u (cont c u))
    (s : State) : RxForward s (streamRead n cont s) := by
  obtain ⟨u, hu, h | ⟨cause, h⟩ | ⟨-, h⟩⟩ := streamRead_outcomes n cont s <;> rw [h]
  · exact ⟨hu.again, hu.pos_le, hu.in_bounds⟩
  · exact ⟨hu.again, hu.pos_le, hu.in_bounds⟩
  · obtain ⟨-, hcuts, hpos⟩ := hcont u.rxAcc u
    exact ⟨hcuts ▸ hu.again, hpos ▸ hu.pos_le, hpos ▸ hu.in_bounds⟩

theorem takeHeader_keepsRx (h : List Byte) (s : State) : KeepsRx s (takeHeader h s) := by
  unfold takeHeader; split <;> exact ⟨rfl, rfl, rfl⟩

theorem takeExt16_keepsRx (e : List Byte) (s : State) : KeepsRx s (takeExt16 e s) := by
  unfold takeExt16; split <;> exact ⟨rfl, rfl, rfl⟩

theorem takeExt64_keepsRx (e : List Byte) (s : State) : KeepsRx s (takeExt64 e s) := ⟨rfl, rfl, rfl⟩

theorem takeKey_keepsRx (k : List Byte) (s : State) : KeepsRx s (takeKey k s) := by
  unfold takeKey; split <;> exact ⟨rfl, rfl, rfl⟩

theorem takePayload_keepsRx (r : List Byte) (s : State) : KeepsRx s (takePayload r s) := ⟨rfl, rfl, rfl⟩

theorem phaseStep_rxForward (p : Phase) (s : State) : RxForward s (phaseStep p s) := by
  cases p with
  | rxHdr => exact streamRead_rxForward takeHeader_keepsRx s
  | rxExt =>
    simp only [phaseStep, stepRxExt]
    split
    · exact KeepsRx.rxForward ⟨rfl, rfl, rfl⟩
    · exact streamRead_rxForward takeExt16_keepsRx s
    · exact streamRead_rxForward takeExt64_keepsRx s
  | rxKey =>
    simp only [phaseStep, stepRxKey]
    split
    · exact streamRead_rxForward takeKey_keepsRx s
    · exact KeepsRx.rxForward ⟨rfl, rfl, rfl⟩
  | rxPay =>
    simp only [phaseStep, stepRxPay]
    split
    · exact KeepsRx.rxForward ⟨rfl, rfl, rfl⟩
    · split
      · exact KeepsRx.rxForward ⟨rfl, rfl, rfl⟩
      · exact streamRead_rxForward takePayload_keepsRx s
  | _ => exact (phaseStep_keepsRx rfl s).rxForward

/-- What a step of a writing phase does, by the stream's answer (R55). -/
theorem phaseStep_write_outcomes {p : Phase} (hp : p.isWriting = true) (s : State) :
    (s.txAnswers.pop = none ∧ phaseStep p s = { s with txBuf := writtenString p s }) ∨
    (∃ r, s.txAnswers.pop = some (.done, r) ∧
      phaseStep p s =
        afterWrite p { s with txAnswers := r, txLog := s.txLog ++ [writtenString p s], txBuf := [] }) ∨
    (∃ n r, s.txAnswers.pop = some (.error n, r) ∧
      phaseStep p s =
        { s with err := .ioFailure, txAnswers := r, txPartial := (writtenString p s).take n, txBuf := [] }) := by
  rw [phaseStep_of_isWriting hp]
  exact streamWrite_cases (afterWrite p) { s with txBuf := writtenString p s }

@[simp] theorem afterWrite_txAnswers (p : Phase) (s : State) : (afterWrite p s).txAnswers = s.txAnswers := by
  cases p <;> rfl

theorem phaseStep_txAnswers_again (p : Phase) (s : State) :
    (phaseStep p s).txAnswers.again = s.txAnswers.again := by
  cases hp : p.isWriting with
  | false => rw [(phaseStep_keepsTx hp s).answers]
  | true =>
    obtain ⟨-, h⟩ | ⟨r, hpop, h⟩ | ⟨n, r, hpop, h⟩ := phaseStep_write_outcomes hp s <;> rw [h]
    · rw [afterWrite_txAnswers]
      exact Answers.pop_again hpop
    · exact Answers.pop_again hpop

/-- A phase adds at most one string to `tx_log`. -/
theorem phaseStep_txLog (p : Phase) (s : State) :
    (phaseStep p s).txLog = s.txLog ∨ ∃ w, (phaseStep p s).txLog = s.txLog ++ [w] := by
  cases hp : p.isWriting with
  | false => exact .inl (phaseStep_keepsTx hp s).log
  | true =>
    obtain ⟨r, -, h⟩ | ⟨-, h⟩ := phaseStep_write_cases hp s
    · exact .inr ⟨writtenString p s, by rw [h, afterWrite_txLog]⟩
    · exact .inl h

/-- No phase clears CLOSE_SENT or STREAM_CLOSED (R26). -/
theorem phaseStep_keeps_flags (p : Phase) (s : State) :
    (s.closeSent = true → (phaseStep p s).closeSent = true) ∧
      (s.streamClosed = true → (phaseStep p s).streamClosed = true) := by
  cases p with
  | clSend => obtain ⟨-, h⟩ | ⟨r, -, h⟩ | ⟨n, r, -, h⟩ := phaseStep_write_outcomes (p := .clSend) rfl s <;>
      rw [h] <;> simp [afterWrite]
  | clClose => simp only [phaseStep, stepClClose]; split <;> simp
  | _ => rw [phaseStep_writesOwn]; exact ⟨id, id⟩

/-! ## The step -/

theorem step_rxForward {s t : State} (h : step s = .next t) : RxForward s t := by
  obtain ⟨-, rfl⟩ | ⟨-, k, c, -, rfl⟩ | ⟨-, -, rfl⟩ | ⟨-, rfl⟩ := step_next_cases h
  · exact KeepsRx.rxForward ⟨by simp, by simp, by simp⟩
  · exact KeepsRx.rxForward ⟨rfl, rfl, rfl⟩
  · obtain ⟨hn, hc, hpos⟩ := (dispatchOf_keeps (fetchInstr s) { s with verdict := .ok }).1
    exact KeepsRx.rxForward ⟨hn, hc, hpos⟩
  · exact phaseStep_rxForward _ s

/-- With an exception raised nothing but the end of the error entry runs (R262). -/
theorem step_of_err {s t : State} (h : step s = .next t) (he : s.err ≠ .none) : t = finishErrorEntry s ∨ t = s := by
  obtain ⟨-, hs⟩ | ⟨-, -, -, hs⟩ | ⟨-, he', -, -⟩ | ⟨-, he' | hp, -, hs⟩ := step_cases s
  · rw [hs] at h; cases h
  · rw [hs] at h; cases h; exact .inl rfl
  · exact absurd he' he
  · exact absurd he' he
  · rw [hs, hp] at h; cases h; exact .inr rfl

/-! ## O4, O6 -/

/-- Settles O4: `step` answers for every phase in its state, and faults for every other. -/
theorem stepAnswersExceptOutsideState : Obligations.StepAnswersExceptOutsideState := by
  intro s
  obtain ⟨hc, hs⟩ | ⟨hc, -, -, hs⟩ | ⟨hc, -, -, hs⟩ | ⟨hc, -, -, hs⟩ := step_cases s
  · exact ⟨fun h => absurd h hc, fun _ => hs⟩
  · exact ⟨fun _ => ⟨_, hs⟩, fun h => absurd hc h⟩
  · obtain ⟨k, c, -, hx⟩ | ⟨-, hx⟩ := exec_cases (fetchInstr s) s <;>
      exact ⟨fun _ => ⟨_, hs.trans hx⟩, fun h => absurd hc h⟩
  · exact ⟨fun _ => ⟨_, hs⟩, fun h => absurd hc h⟩

/-- In DONE nothing runs (R208). -/
theorem step_done {s : State} (hconn : s.conn = .closed) (hp : s.phase = .done) : step s = .next s := by
  simp [step, runStep, hconn, hp, Phase.conn]

/-- Settles O6, by induction on the number of steps. -/
theorem closedIsTerminal : Obligations.ClosedIsTerminal := by
  intro s hconn hp k
  induction k with
  | zero => exact reaches_refl s
  | succ k ih => exact reaches_succ (step_done hconn hp) ih

/-! ## O7, O8, O10, O11 -/

/-- Settles O7: no phase has an input among its registers, nothing but the error entry's end runs once ERR is set, and no
phase clears a flag. -/
theorem fixedInputsAndFlagsThatStay : Obligations.FixedInputsAndFlagsThatStay := by
  intro s t h
  refine ⟨?_, fun he => ?_, ?_⟩
  · have hrx := (step_rxForward h).again
    obtain ⟨-, rfl⟩ | ⟨-, k, c, -, rfl⟩ | ⟨-, -, rfl⟩ | ⟨-, rfl⟩ := step_next_cases h
    · simp
    · simp
    · rw [dispatchOf_writes]
      simp
    · refine ⟨?_, ?_, ?_, ?_, ?_, ?_, hrx, phaseStep_txAnswers_again _ s, ?_⟩ <;>
        rw [phaseStep_writesOwn] <;> cases s.phase <;> rfl
  · obtain rfl | rfl := step_of_err h he
    · exact finishErrorEntry_err s
    · rfl
  · obtain ⟨-, rfl⟩ | ⟨-, k, c, -, rfl⟩ | ⟨-, -, rfl⟩ | ⟨-, rfl⟩ := step_next_cases h
    · obtain ⟨he, -⟩ | ⟨he, -⟩ := finishErrorEntry_cases s <;> rw [he] <;> simp
    · exact ⟨id, id⟩
    · rw [dispatchOf_writes]
      exact ⟨id, id⟩
    · exact phaseStep_keeps_flags _ s

/-- Settles O8: the read's position goes forward within the bytes sent, and only a completed write moves `tx_log`. -/
theorem streamsOnlyGoForward : Obligations.StreamsOnlyGoForward := by
  intro s t hinv h
  obtain ⟨-, hpos, hbound⟩ := step_rxForward h
  refine ⟨hpos, fun ht => hbound ht (hinv.consumed_in_bounds ht), ?_⟩
  obtain ⟨-, rfl⟩ | ⟨-, k, c, -, rfl⟩ | ⟨-, -, rfl⟩ | ⟨-, rfl⟩ := step_next_cases h
  · exact .inl (finishErrorEntry_txLog s)
  · exact .inl rfl
  · exact .inl (dispatchOf_keeps (fetchInstr s) { s with verdict := .ok }).2.log
  · exact phaseStep_txLog _ s

/-- Settles O10: no phase but CHECK has STATUS among its registers. -/
theorem statusIsWrittenOnlyInCheck : Obligations.StatusIsWrittenOnlyInCheck := by
  intro s t h hne
  obtain ⟨-, rfl⟩ | ⟨hp, k, c, -, rfl⟩ | ⟨hp, -, rfl⟩ | ⟨-, rfl⟩ := step_next_cases h
  · exact absurd (finishErrorEntry_status s) hne
  · exact ⟨hp, rfl, rfl⟩
  · cases hi : fetchInstr s with
    | close f => 
      rw [dispatchOf, peerClose_writes]
      exact ⟨hp, rfl, rfl⟩
    | _ => 
      rw [hi] at hne
      exact absurd rfl hne
  · refine absurd ?_ hne
    rw [phaseStep_writesOwn]
    cases s.phase <;> rfl

/-- Settles O11: the frame registers are their own phases', CHECK writes VERDICT, and of its dispatches a ping's
F_OPCODE. -/
theorem frameRegistersAreWrittenByTheirPhase : Obligations.FrameRegistersAreWrittenByTheirPhase := by
  intro s t h
  obtain ⟨-, rfl⟩ | ⟨hp, k, c, -, rfl⟩ | ⟨hp, -, rfl⟩ | ⟨-, rfl⟩ := step_next_cases h
  · simp
  · simp [hp]
  · cases hi : fetchInstr s with
    | ping f =>
      have ho := fetchInstr_opcode s
      rw [hi] at ho
      simp [dispatchOf, hp, ← ho, Instr.opcode]
    | close f => rw [dispatchOf, peerClose_writes]; simp [hp]
    | _ => simp [dispatchOf, hp]
  · rw [phaseStep_writesOwn]
    cases s.phase <;> simp [sharedRegisters, ownRegisters]

/-! ## O5 -/

/-- In each state of the connection the exceptions of its own phases (R190, R261). -/
theorem Inv.err_of_conn {s : State} (h : Inv s) (he : s.err ≠ .none) :
    (s.conn = .handshaking → s.err = .handshakeFailure ∨ s.err = .ioFailure) ∧
      (s.conn = .opened → s.err = .ioFailure ∨ s.err = .resourceExhausted) ∧
      (s.conn = .closing → s.err = .ioFailure) := by
  obtain ⟨hhs, hres, -⟩ := h.error_phase
  rw [← h.phase_in_state]
  cases herr : s.err with
  | none => exact absurd herr he
  | ioFailure => simp
  | resourceExhausted => obtain hp | hp := hres herr <;> simp [hp, Phase.conn]
  | handshakeFailure => obtain hp | hp := hhs herr <;> simp [hp, Phase.conn]

/-- Settles O5: STATE is a register of HS_SEND and CL_CLOSE, of the violation latch, of a close's dispatch, and of the error
entry's end. -/
theorem stateTransitionsAreTheFive : Obligations.StateTransitionsAreTheFive := by
  intro s t hinv h hne
  obtain ⟨he, rfl⟩ | ⟨hp, k, c, -, rfl⟩ | ⟨hp, hv, rfl⟩ | ⟨-, rfl⟩ := step_next_cases h
  · obtain ⟨hf, -⟩ | ⟨hf, -⟩ := finishErrorEntry_cases s
    · rw [hf] at hne ⊢
      obtain ⟨hhs, hop, hcl⟩ := hinv.err_of_conn he
      cases hc : s.conn with
      | handshaking => exact .inr (.inl ⟨rfl, rfl, hhs hc⟩)
      | opened => exact .inr (.inr (.inr (.inl ⟨rfl, rfl, hop hc⟩)))
      | closing => exact .inr (.inr (.inr (.inr ⟨rfl, rfl, rfl, .inr (hcl hc)⟩)))
      | closed => exact absurd hc.symm hne
    · exact absurd (congrArg State.conn hf) hne
  · have hc : s.conn = .opened := by rw [← hinv.phase_in_state, hp]; rfl
    exact .inr (.inr (.inl ⟨hc, rfl, hp, .inl ⟨k, c, rfl⟩⟩))
  · have hc : s.conn = .opened := by rw [← hinv.phase_in_state, hp]; rfl
    cases hi : fetchInstr s with
    | close f =>
      have ho := fetchInstr_opcode s
      rw [hi] at ho
      rw [dispatchOf, peerClose_writes]
      exact .inr (.inr (.inl ⟨hc, rfl, hp, .inr ⟨ho.symm, rfl⟩⟩))
    | _ => rw [hi] at hne; exact absurd rfl hne
  · cases hp : s.phase with
    | hsSend =>
      have hc : s.conn = .handshaking := by rw [← hinv.phase_in_state, hp]; rfl
      rw [hp] at hne
      obtain ⟨-, ht⟩ | ⟨r, -, ht⟩ | ⟨n, r, -, ht⟩ := phaseStep_write_outcomes (p := .hsSend) rfl s <;> rw [ht] at hne ⊢
      · exact absurd rfl hne
      · exact .inl ⟨hc, rfl, rfl⟩
      · exact absurd rfl hne
    | clClose =>
      have hc : s.conn = .closing := by rw [← hinv.phase_in_state, hp]; rfl
      rw [hp] at hne
      simp only [phaseStep, stepClClose] at hne ⊢
      split at hne
      next ha =>
        rw [if_pos ha]
        exact .inr (.inr (.inr (.inr ⟨hc, rfl, rfl, .inl (hinv.close_sent_iff.mpr (.inl hp))⟩)))
      next => exact absurd rfl hne
    | _ =>
      rw [hp, phaseStep_writesOwn] at hne
      exact absurd rfl hne

end Sys2Proof.Machine
end

section
/-! The invariant of the machine holds after START and every step keeps it (10_state.md R22 to R32, 20_memory.md R51, R53,
43_connection_driver.md R190): one lemma per kind of update, then one per phase. -/

namespace Sys2Proof.Machine

variable {s : State}

/-! ## Facts of a state that meets the invariant -/

/-- No read is under way in a phase that reads nothing (R61). -/
theorem Inv.rxNeed_eq_zero (h : Inv s) (he : s.err = .none) (hl : readLength s = 0) : s.rxNeed = 0 := by
  by_contra hn
  have hsum := h.read_progress he hn
  have h0 : s.rxNeed.toNat = 0 := by omega
  exact hn (BitVec.eq_of_toNat_eq h0)

/-- CLOSE_SENT is 0 before the close frame is written (R26). -/
theorem Inv.closeSent_eq_false (h : Inv s) (h1 : s.phase ≠ .clClose) (h2 : s.phase ≠ .done) : s.closeSent = false :=
  Bool.eq_false_of_not_eq_true fun hc => (h.close_sent_iff.mp hc).elim h1 fun hd => h2 hd.1

/-! ## The exceptions (R262) -/

/-- The error entry up to its CLOSE keeps the invariant, in the phases that raise the exception. -/
theorem Inv.errorEntry (h : Inv s) {e : Exn} (h1 : s.phase ≠ .clClose) (h2 : s.phase ≠ .done)
    (hphase : (e.errCode = .handshakeFailure → s.phase = .hsStart) ∧ (e.errCode = .resourceExhausted → s.phase = .rxPay) ∧
      (e.errCode = .ioFailure → s.phase.isReading = true ∨ s.phase.isWriting = true)) : Inv (errorEntry e s) := by
  have hne : e.errCode ≠ .none := by cases e <;> exact nofun
  obtain ⟨hhs, hres, hio⟩ := hphase
  exact
    { h with
      close_sent_iff := by
        simp [h.closeSent_eq_false h1 h2, h1, h2]
      close_without_error := fun hc => absurd hc h1
      error_phase := ⟨fun he => .inl (hhs he), fun he => .inl (hres he), fun he => (hio he).imp_right .inl⟩
      tx_buf_empty := fun _ => rfl
      tx_buf_after_error := fun _ => rfl
      tx_buf_written := fun _ he => absurd he hne
      reply_frame := fun _ he => absurd he hne
      read_progress := fun he => absurd he hne
      payload_read_fits := fun _ he => absurd he hne }

/-- The CLOSE keeps the invariant, with CLOSE_SENT telling an end in order from one by an exception (R207, R262). -/
theorem Inv.afterClose (h : Inv s) (hbuf : s.txBuf = []) (hneed : s.err = .none → s.rxNeed = 0)
    (hsent : s.closeSent = true ↔ s.err = .none) : Inv (afterClose s) :=
  { h with
    phase_in_state := rfl
    status_default := by simp [Machine.afterClose]
    status_of_violation := nofun
    reply_verdict := nofun
    stream_closed_iff := ⟨fun _ => rfl, fun _ => rfl⟩
    close_sent_iff := by simp [Machine.afterClose, hsent]
    close_without_error := nofun
    error_phase := ⟨fun _ => .inr rfl, fun _ => .inr rfl, fun _ => .inr (.inr rfl)⟩
    tx_buf_empty := fun _ => hbuf
    tx_buf_written := by simp [Machine.afterClose]
    reply_frame := nofun
    nothing_before_response := nofun
    response_written := by simp [Machine.afterClose]
    read_progress := fun he hn => absurd (hneed he) hn
    payload_read_fits := nofun
    length_form := by simp [Machine.afterClose]
    frame_whole := by simp [Machine.afterClose] }

theorem Inv.finishErrorEntry (h : Inv s) (he : s.err ≠ .none) : Inv (finishErrorEntry s) := by
  obtain ⟨hf, -⟩ | ⟨hf, -⟩ := finishErrorEntry_cases s <;> rw [hf]
  · refine h.afterClose (h.tx_buf_after_error he) (fun h0 => absurd h0 he) ⟨fun hc => ?_, fun h0 => absurd h0 he⟩
    obtain hp | ⟨-, h0⟩ := h.close_sent_iff.mp hc
    · exact h.close_without_error hp
    · exact h0
  · exact h

/-! ## Decoding: the phases RX_HDR to CHECK with no read under way -/

/-- What the invariant says of a state that decodes, between two reads and with no error. -/
structure Decoding (s : State) : Prop where
  opened : s.conn = .opened
  no_error : s.err = .none
  phase : s.phase.isReading = true ∨ s.phase = .check
  no_read : s.rxNeed = 0
  no_write : s.txBuf = []
  not_sent : s.closeSent = false
  not_closed : s.streamClosed = false
  status : s.status = 1000
  consumed_in_bounds : s.rxTail = .none → s.rxPos ≤ s.rxBytes.length
  verdict_code : ∀ k c, s.verdict = .err k c → c = k.code
  response_written : s.txLog ≠ []
  frames_after_response : ∀ w ∈ s.txLog.tail, ∃ f : Frame, w = encodeFrame f
  length_form : s.phase = .rxKey ∨ s.phase = .rxPay ∨ s.phase = .check → (LenForm.ofLen7 s.fLen7).holds s.fLen = true
  frame_whole : s.phase = .check → s.fPayload.length = s.fLen.toNat ∧ s.fLen.toNat ≤ s.params.maxPayload.toNat

/-- The decoder's phases lie in OPEN and write nothing. -/
theorem Phase.cases_of_decoding {q : Phase} (h : q.isReading = true ∨ q = .check) :
    q = .rxHdr ∨ q = .rxExt ∨ q = .rxKey ∨ q = .rxPay ∨ q = .check := by
  cases q with
  | rxHdr | rxExt | rxKey | rxPay | check => simp
  | _ => simp [Phase.isReading] at h

theorem Decoding.inv (h : Decoding s) : Inv s := by
  obtain ⟨hconn, he, hp, hneed, hbuf, hsent, hclosed, hstatus, hbytes, hverdict, hlog, hframes, hform, hwhole⟩ := h
  have hq : s.phase.conn = .opened ∧ s.phase.isWriting = false ∧ s.phase ≠ .hsSend ∧ s.phase ≠ .reply ∧
      s.phase ≠ .clClose ∧ s.phase ≠ .done := by
    obtain hp | hp | hp | hp | hp := Phase.cases_of_decoding hp <;> rw [hp] <;> exact ⟨rfl, rfl, nofun, nofun, nofun, nofun⟩
  obtain ⟨hpc, hwrite, h1, h2, h3, h4⟩ := hq
  exact
    { phase_in_state := hpc.trans hconn.symm
      consumed_in_bounds := hbytes
      status_legal := by rw [hstatus]; decide
      status_default := fun _ => hstatus
      verdict_code := hverdict
      status_of_violation := by simp [hconn]
      reply_verdict := fun hq => absurd hq h2
      stream_closed_iff := by simp [hclosed, h4]
      close_sent_iff := by simp [hsent, h3, h4]
      close_without_error := fun hq => absurd hq h3
      error_phase := by simp [he]
      tx_buf_empty := fun _ => hbuf
      tx_buf_after_error := fun _ => hbuf
      tx_buf_written := fun hq => (hq.elim h1 h2).elim
      reply_frame := fun hq => absurd hq h2
      nothing_before_response := by simp [hconn]
      response_written := fun _ => hlog
      frames_after_response := hframes
      read_progress := fun _ hn => absurd hneed hn
      payload_read_fits := fun _ _ hn => absurd hneed hn
      length_form := hform
      frame_whole := fun hq => hwhole (hq.resolve_right h2) }

theorem Inv.decoding (h : Inv s) (hp : s.phase.isReading = true ∨ s.phase = .check) (he : s.err = .none)
    (hneed : s.rxNeed = 0) : Decoding s := by
  have hq : s.phase.conn = .opened ∧ s.phase.isWriting = false ∧ s.phase ≠ .clClose ∧ s.phase ≠ .done := by
    obtain hp | hp | hp | hp | hp := Phase.cases_of_decoding hp <;> rw [hp] <;> exact ⟨rfl, rfl, nofun, nofun⟩
  obtain ⟨hpc, hwrite, h1, h2⟩ := hq
  have hconn : s.conn = .opened := h.phase_in_state.symm.trans hpc
  exact
    { h with
      opened := hconn
      no_error := he
      phase := hp
      no_read := hneed
      no_write := h.tx_buf_empty hwrite
      not_sent := h.closeSent_eq_false h1 h2
      not_closed := Bool.eq_false_of_not_eq_true fun hc => h2 (h.stream_closed_iff.mp hc)
      status := h.status_default (.inr hconn)
      response_written := h.response_written (.inl hconn)
      frame_whole := fun hc => h.frame_whole (.inl hc) }

/-! ## CHECK (R195 to R204) -/

/-- No exception is pending in CHECK (R261). -/
theorem Inv.err_of_check (h : Inv s) (hp : s.phase = .check) : s.err = .none := by
  obtain ⟨hhs, hres, hio⟩ := h.error_phase
  rw [hp] at hhs hres hio
  cases he : s.err with
  | none => rfl
  | ioFailure => simpa [Phase.isReading, Phase.isWriting] using hio he
  | resourceExhausted => simpa using hres he
  | handshakeFailure => simpa using hhs he

/-- CLOSING is decided with a legal code, which a violation in VERDICT names (R196, R199). -/
theorem Inv.toClosing (h : Inv s) (hp : s.phase = .check) {v : Verdict} {c : BitVec 16}
    (hv : ∀ k d, v = .err k d → d = k.code ∧ c = d) (hc : closeCodeLegal c = true) :
    Inv { s with verdict := v, status := c, conn := .closing, phase := .clSend } := by
  have he := h.err_of_check hp
  have hconn : s.conn = .opened := by rw [← h.phase_in_state, hp]; rfl
  have hsent := h.closeSent_eq_false (by simp [hp]) (by simp [hp])
  have hneed := h.rxNeed_eq_zero he (by simp [readLength, hp])
  exact
    { h with
      phase_in_state := rfl
      status_legal := hc
      status_default := by simp
      verdict_code := fun k d hk => (hv k d hk).1
      status_of_violation := fun _ k d hk => (hv k d hk).2
      reply_verdict := nofun
      stream_closed_iff := by simpa [hp] using h.stream_closed_iff
      close_sent_iff := by simp [hsent]
      close_without_error := nofun
      error_phase := by simp [he]
      tx_buf_empty := nofun
      tx_buf_written := by simp
      reply_frame := nofun
      nothing_before_response := nofun
      response_written := fun _ => h.response_written (.inl hconn)
      read_progress := fun _ hn => absurd hneed hn
      payload_read_fits := nofun
      length_form := by simp
      frame_whole := by simp }

theorem encodeFrame_ne_nil (f : Frame) : encodeFrame f ≠ [] := by
  obtain ⟨b0, b1, rest, hf, -⟩ := encodeFrame_shape f
  simp [hf]

/-- A reply is made of the frame in flight (R198, R200 to R202). -/
theorem Inv.toReply (h : Inv s) (hp : s.phase = .check) {op : BitVec 4} {f : Frame}
    (hf : f = frameInFlight { s with fOpcode := op }) :
    Inv { s with verdict := .ok, fOpcode := op, txBuf := encodeFrame f, phase := .reply } := by
  have he := h.err_of_check hp
  have hconn : s.conn = .opened := by rw [← h.phase_in_state, hp]; rfl
  have hsent := h.closeSent_eq_false (by simp [hp]) (by simp [hp])
  have hneed := h.rxNeed_eq_zero he (by simp [readLength, hp])
  exact
    { h with
      phase_in_state := hconn.symm
      verdict_code := nofun
      status_of_violation := fun _ => nofun
      reply_verdict := fun _ => rfl
      stream_closed_iff := by simpa [hp] using h.stream_closed_iff
      close_sent_iff := by simp [hsent]
      close_without_error := nofun
      error_phase := by simp [he]
      tx_buf_empty := nofun
      tx_buf_after_error := fun h0 => absurd he h0
      tx_buf_written := fun _ _ => encodeFrame_ne_nil f
      reply_frame := fun _ _ => by rw [hf]; rfl
      read_progress := fun _ hn => absurd hneed hn
      payload_read_fits := nofun
      length_form := by simp
      frame_whole := fun _ => h.frame_whole (.inl hp) }

/-- A verdict of `Ok` keeps the invariant (R197). -/
theorem Inv.verdict_ok (h : Inv s) : Inv { s with verdict := .ok } :=
  { h with
    verdict_code := nofun
    status_of_violation := fun _ => nofun
    reply_verdict := fun _ => rfl }

/-- The next frame's decode follows a dropped one (R203, R204). -/
theorem Inv.dropFrame (h : Inv s) (hp : s.phase = .check) : Inv (dropFrame s) := by
  have he := h.err_of_check hp
  refine Decoding.inv
    { h.decoding (.inr hp) he (h.rxNeed_eq_zero he (by simp [readLength, hp])) with
      phase := .inl rfl
      length_form := by simp
      frame_whole := nofun }

theorem fetchInstr_ops_frame (s : State) (op : BitVec 4) :
    (fetchInstr s).ops.frame op = frameInFlight { s with fOpcode := op } := by
  rw [fetchInstr, Instr.ops_ofOpcode]; rfl

/-- The status that a valid close leaves is legal (R158, R199). -/
theorem peerClose_status_legal {f : FrameOps} (hs : closeCodeLegal s.status = true)
    (hlen : f.payload.length = f.len.toNat) (hv : validate (f.frame 8) = .ok) :
    closeCodeLegal (peerClose f s).status = true := by
  obtain ⟨-, -, -, -, -, hclose⟩ := validate_eq_ok_iff.mp hv
  unfold peerClose
  split
  next h2 =>
    obtain h0 | ⟨-, c0, c1, reason, hp, hlegal, -⟩ :=
      (validateClose_eq_ok_iff (f := f.frame 8) hlen).mp (hclose rfl)
    · rw [show f.len = 0 from h0] at h2
      exact absurd h2 (by decide)
    · rw [show f.payload = c0 :: c1 :: reason from hp]
      exact hlegal
  next => exact hs

/-- A valid frame's dispatch keeps the invariant (R197 to R204). -/
theorem Inv.dispatchOf (h : Inv s) (hp : s.phase = .check) (hv : validate (fetchInstr s).frame = .ok) :
    Inv (dispatchOf (fetchInstr s) { s with verdict := .ok }) := by
  have ho := fetchInstr_opcode s
  have hf := fetchInstr_ops_frame s
  have hlen : (fetchInstr s).ops.payload.length = (fetchInstr s).ops.len.toNat := by
    rw [fetchInstr, Instr.ops_ofOpcode]
    exact (h.frame_whole (.inl hp)).1
  generalize fetchInstr s = i at *
  cases i with
  | cont f | text f | binary f => exact h.toReply (op := s.fOpcode) hp (by rw [← ho]; exact hf _)
  | ping f => exact h.toReply (op := 10) hp (hf 10)
  | close f =>
    rw [Machine.dispatchOf, peerClose_writes]
    exact h.toClosing hp nofun (peerClose_status_legal (s := { s with verdict := .ok }) h.status_legal hlen hv)
  | _ => exact h.verdict_ok.dropFrame hp

/-- A violation's latch keeps the invariant (R171, R196). -/
theorem Inv.latchViolation (h : Inv s) (hp : s.phase = .check) {f : Frame} {k : ViolationKind} {c : BitVec 16}
    (hv : validate f = .err k c) : Inv (latchViolation c { s with verdict := .err k c }) := by
  refine h.toClosing hp ?_ ?_
  · rintro _ _ ⟨⟩
    exact ⟨validate_code hv, rfl⟩
  · rw [validate_code hv]
    obtain hc | hc := k.code_cases <;> rw [hc] <;> decide

/-! ## The decoder's phases (R101 to R111) -/

/-- A read transaction keeps the invariant. -/
theorem Inv.readStep (h : Inv s) {n : BitVec 64} {u : State} (hu : ReadStep n s u) (hn : n.toNat = readLength s)
    (hfit : s.phase = .rxPay → s.fLen.toNat ≤ s.params.maxPayload.toNat) : Inv u := by
  have hgath := hu.gathered
  have hbound := hu.in_bounds
  rw [hu.regs]
  exact
    { h with
      consumed_in_bounds := fun ht => hbound ht (h.consumed_in_bounds ht)
      read_progress := fun he _ => (hgath fun h0 => hn ▸ h.read_progress he h0).trans hn
      payload_read_fits := fun hp _ _ => hfit hp }

/-- A phase's read keeps the invariant when what follows the read does. -/
theorem Inv.streamRead (h : Inv s) (hp : s.phase.isReading = true) {n : BitVec 64} (hn : n.toNat = readLength s)
    (hfit : s.phase = .rxPay → s.fLen.toNat ≤ s.params.maxPayload.toNat) (he : s.err = .none)
    {cont : List Byte → State → State}
    (hcont : ∀ u, ReadStep n s u → Decoding u → u.rxAcc.length = n.toNat → Inv (cont u.rxAcc u)) :
    Inv (streamRead n cont s) := by
  obtain ⟨u, hu, ht | ⟨cause, ht⟩ | ⟨hz, ht⟩⟩ := streamRead_outcomes n cont s <;> rw [ht]
  · exact h.readStep hu hn hfit
  · have hpu : u.phase = s.phase := by rw [hu.regs]
    refine (h.readStep hu hn hfit).errorEntry ?_ ?_ ⟨nofun, nofun, fun _ => .inl (hpu ▸ hp)⟩ <;> rw [hpu] <;>
      intro h0 <;> rw [h0] at hp <;> cases hp
  · have := hu.gathered fun h0 => (h.read_progress he h0).trans hn.symm
    rw [hz] at this
    have hpu : u.phase = s.phase := by rw [hu.regs]
    have heu : u.err = s.err := by rw [hu.regs]
    exact hcont u hu ((h.readStep hu hn hfit).decoding (.inl (hpu ▸ hp)) (heu.trans he) hz) (by simpa using this)

/-- RX_HDR leads to RX_EXT with any header (R101). -/
theorem Inv.stepRxHdr (h : Inv s) (hp : s.phase = .rxHdr) (he : s.err = .none) : Inv (stepRxHdr s) := by
  refine h.streamRead (by rw [hp]; rfl) (by simp [readLength, hp]) (by simp [hp]) he fun u _ hd _ => ?_
  unfold takeHeader
  split
  · exact Decoding.inv
      { hd with
        phase := .inl rfl
        length_form := by simp
        frame_whole := nofun }
  · exact hd.inv

/-- RX_EXT leads to RX_KEY with a length that its form holds (R74, R102 to R104). -/
theorem Decoding.toKey (hd : Decoding s) {len : BitVec 64} (hform : (LenForm.ofLen7 s.fLen7).holds len = true) :
    Inv { s with fLen := len, phase := .rxKey } :=
  Decoding.inv
    { hd with
      phase := .inl rfl
      length_form := fun _ => hform
      frame_whole := nofun }

theorem Inv.stepRxExt (h : Inv s) (hp : s.phase = .rxExt) (he : s.err = .none) : Inv (stepRxExt s) := by
  have hread : s.phase.isReading = true := by rw [hp]; rfl
  have hfit : s.phase = .rxPay → s.fLen.toNat ≤ s.params.maxPayload.toNat := by simp [hp]
  obtain ⟨hle, hform⟩ | ⟨h126, hform⟩ | ⟨h127, hform⟩ := LenForm.ofLen7_cases s.fLen7
  · rw [stepRxExt_short hle]
    have hneed := h.rxNeed_eq_zero he (by simp [readLength, hp, hform, LenForm.extBytes])
    exact (h.decoding (.inl hread) he hneed).toKey ((lengthFields_short hle).mpr rfl).holds
  · rw [stepRxExt_ext16 h126]
    refine h.streamRead hread (by simp [readLength, hp, hform, LenForm.extBytes]) hfit he fun u hu hd _ => ?_
    have hform : LenForm.ofLen7 u.fLen7 = .ext16 := by rw [hu.regs]; exact hform
    unfold takeExt16
    split
    next e0 e1 _ =>
      refine hd.toKey ?_
      rw [hform]
      have hlt := (be16 e0 e1).isLt
      simp [LenForm.holds]
      omega
    next => exact hd.inv
  · rw [stepRxExt_ext64 h127]
    refine h.streamRead hread (by simp [readLength, hp, hform, LenForm.extBytes]) hfit he fun u hu hd _ => ?_
    have hform : LenForm.ofLen7 u.fLen7 = .ext64 := by rw [hu.regs]; exact hform
    exact hd.toKey (by rw [hform]; rfl)

/-- RX_KEY leads to RX_PAY with the length it found (R105). -/
theorem Decoding.toPay (hd : Decoding s) (hp : s.phase = .rxKey) (key : Key) :
    Inv { s with fKey := key, phase := .rxPay } :=
  Decoding.inv
    { hd with
      phase := .inl rfl
      length_form := fun _ => hd.length_form (.inl hp)
      frame_whole := nofun }

theorem Inv.stepRxKey (h : Inv s) (hp : s.phase = .rxKey) (he : s.err = .none) : Inv (stepRxKey s) := by
  have hread : s.phase.isReading = true := by rw [hp]; rfl
  unfold Machine.stepRxKey
  split
  next hk =>
    refine h.streamRead hread (by simp [readLength, hp, hk]) (by simp [hp]) he fun u hu hd _ => ?_
    have hpu : u.phase = .rxKey := by rw [hu.regs]; exact hp
    unfold takeKey
    split
    · exact hd.toPay hpu _
    · exact hd.inv
  next hk =>
    have hneed := h.rxNeed_eq_zero he (by simp [readLength, hp, hk])
    exact (h.decoding (.inl hread) he hneed).toPay hp s.fKey

/-- RX_PAY leads to CHECK with a payload as long as its length, which fits the buffer (R32, R106 to R111). -/
theorem Decoding.takePayload (hd : Decoding s) (hp : s.phase = .rxPay)
    (hfit : s.fLen.toNat ≤ s.params.maxPayload.toNat) {raw : List Byte} (hraw : raw.length = s.fLen.toNat) :
    Inv (takePayload raw s) :=
  Decoding.inv
    { hd with
      phase := .inr rfl
      length_form := fun _ => hd.length_form (.inr (.inl hp))
      frame_whole := fun _ => ⟨by
        refine Eq.trans ?_ hraw
        simp only [Machine.takePayload]
        split
        · exact applyMask_length _ _
        · rfl, hfit⟩ }

theorem Inv.stepRxPay (h : Inv s) (hp : s.phase = .rxPay) (he : s.err = .none) : Inv (stepRxPay s) := by
  have hread : s.phase.isReading = true := by rw [hp]; rfl
  have hlen : readLength s = s.fLen.toNat := by simp [readLength, hp]
  unfold Machine.stepRxPay
  split
  next => exact h.errorEntry (by simp [hp]) (by simp [hp]) ⟨nofun, fun _ => hp, nofun⟩
  next hfit =>
    have hfit := Nat.not_lt.mp hfit
    split
    next h0 =>
      have hneed := h.rxNeed_eq_zero he (by simp [hlen, h0])
      exact (h.decoding (.inl hread) he hneed).takePayload hp hfit (by simp [h0])
    next =>
      refine h.streamRead hread hlen.symm (fun _ => hfit) he fun u hu hd hacc => ?_
      have hpu : u.phase = .rxPay := by rw [hu.regs]; exact hp
      have hlu : u.fLen = s.fLen := by rw [hu.regs]
      have hmu : u.params = s.params := by rw [hu.regs]
      exact hd.takePayload hpu (by rw [hlu, hmu]; exact hfit) (by rw [hacc, hlu])

/-! ## The writing phases and the end (R191, R192, R205 to R207) -/

theorem renderUpgradeResponse_ne_nil (p : Params) (a : List Byte) : renderUpgradeResponse p a ≠ [] := by
  simp [renderUpgradeResponse, crlf]

/-- HS_START leads to HS_SEND with the response, or raises (R191, R264). -/
theorem Inv.stepHsStart (h : Inv s) (hp : s.phase = .hsStart) (he : s.err = .none) : Inv (stepHsStart s) := by
  unfold Machine.stepHsStart
  split
  next =>
    have hneed := h.rxNeed_eq_zero he (by simp [readLength, hp])
    have hconn : s.conn = .handshaking := by rw [← h.phase_in_state, hp]; rfl
    exact
      { h with
        phase_in_state := hconn.symm
        reply_verdict := nofun
        stream_closed_iff := by simpa [hp] using h.stream_closed_iff
        close_sent_iff := by simp [h.closeSent_eq_false (by simp [hp]) (by simp [hp])]
        close_without_error := nofun
        error_phase := by simp [he]
        tx_buf_empty := nofun
        tx_buf_after_error := fun h0 => absurd he h0
        tx_buf_written := fun _ _ => renderUpgradeResponse_ne_nil _ _
        reply_frame := nofun
        read_progress := fun _ hn => absurd hneed hn
        payload_read_fits := nofun
        length_form := by simp
        frame_whole := by simp }
  next => exact h.errorEntry (by simp [hp]) (by simp [hp]) ⟨fun _ => hp, nofun, nofun⟩

/-- A completed write of a frame leaves only frames after the response (R84). -/
theorem frames_of_append {log : List (List Byte)} (h : ∀ w ∈ log.tail, ∃ f : Frame, w = encodeFrame f)
    (hlog : log ≠ []) (f : Frame) : ∀ w ∈ (log ++ [encodeFrame f]).tail, ∃ g : Frame, w = encodeFrame g := by
  intro w hw
  rw [List.tail_append_of_ne_nil hlog, List.mem_append, List.mem_singleton] at hw
  exact hw.elim (h w) fun hw => ⟨f, hw⟩

/-- The response written, the connection decodes (R192). -/
theorem Inv.afterResponse (h : Inv s) (hp : s.phase = .hsSend) (he : s.err = .none) (r : Answers TxAnswer) :
    Inv { s with txAnswers := r, txLog := s.txLog ++ [s.txBuf], txBuf := [], conn := .opened, phase := .rxHdr } := by
  have hconn : s.conn = .handshaking := by rw [← h.phase_in_state, hp]; rfl
  exact Decoding.inv
    { h with
      opened := rfl
      no_error := he
      phase := .inl rfl
      no_read := h.rxNeed_eq_zero he (by simp [readLength, hp])
      no_write := rfl
      not_sent := h.closeSent_eq_false (by simp [hp]) (by simp [hp])
      not_closed := Bool.eq_false_of_not_eq_true fun hc => by simpa [hp] using h.stream_closed_iff.mp hc
      status := h.status_default (.inl hconn)
      response_written := List.concat_ne_nil _ _
      frames_after_response := by simp [h.nothing_before_response hconn]
      length_form := by simp
      frame_whole := nofun }

/-- The reply written, the next frame is decoded (R205). -/
theorem Inv.afterReply (h : Inv s) (hp : s.phase = .reply) (he : s.err = .none) (r : Answers TxAnswer) :
    Inv { s with txAnswers := r, txLog := s.txLog ++ [s.txBuf], txBuf := [], phase := .rxHdr } := by
  have hconn : s.conn = .opened := by rw [← h.phase_in_state, hp]; rfl
  exact Decoding.inv
    { h with
      opened := hconn
      no_error := he
      phase := .inl rfl
      no_read := h.rxNeed_eq_zero he (by simp [readLength, hp])
      no_write := rfl
      not_sent := h.closeSent_eq_false (by simp [hp]) (by simp [hp])
      not_closed := Bool.eq_false_of_not_eq_true fun hc => by simpa [hp] using h.stream_closed_iff.mp hc
      status := h.status_default (.inr hconn)
      response_written := List.concat_ne_nil _ _
      frames_after_response := by
        rw [h.reply_frame hp he]
        exact frames_of_append h.frames_after_response (h.response_written (.inl hconn)) _
      length_form := by simp
      frame_whole := nofun }

/-- The close frame written, the stream is to be closed (R206). -/
theorem Inv.afterCloseFrame (h : Inv s) (hp : s.phase = .clSend) (he : s.err = .none) (r : Answers TxAnswer) :
    Inv { s with
      txAnswers := r, txLog := s.txLog ++ [encodeFrame (closeFrame s.status)], txBuf := [], closeSent := true
      phase := .clClose } := by
  have hconn : s.conn = .closing := by rw [← h.phase_in_state, hp]; rfl
  have hneed := h.rxNeed_eq_zero he (by simp [readLength, hp])
  exact
    { h with
      phase_in_state := hconn.symm
      reply_verdict := nofun
      stream_closed_iff := by simpa [hp] using h.stream_closed_iff
      close_sent_iff := by simp
      close_without_error := fun _ => he
      error_phase := by simp [he]
      tx_buf_empty := fun _ => rfl
      tx_buf_after_error := fun _ => rfl
      tx_buf_written := by simp
      reply_frame := nofun
      nothing_before_response := by simp [hconn]
      response_written := fun _ => List.concat_ne_nil _ _
      frames_after_response := frames_of_append h.frames_after_response (h.response_written (.inr hconn)) _
      read_progress := fun _ hn => absurd hneed hn
      payload_read_fits := nofun
      length_form := by simp
      frame_whole := by simp }

theorem writtenString_of_ne {p : Phase} (hp : p ≠ .clSend) (s : State) : writtenString p s = s.txBuf := by
  cases p with
  | clSend => exact absurd rfl hp
  | _ => rfl

/-- A write that waits has its string in TX_BUF (R55). -/
theorem Inv.waiting (h : Inv s) (hp : s.phase.isWriting = true) (he : s.err = .none) :
    Inv { s with txBuf := writtenString s.phase s } := by
  by_cases hph : s.phase = .clSend
  · exact
      { h with
        tx_buf_empty := fun hw => nomatch hp.symm.trans hw
        tx_buf_after_error := fun h0 => absurd he h0
        tx_buf_written := fun hq => hq.elim (fun hq => nomatch hph.symm.trans hq) fun hq => nomatch hph.symm.trans hq
        reply_frame := fun hq => nomatch hph.symm.trans hq }
  · rw [writtenString_of_ne hph]
    exact h

/-- A failed write keeps the invariant (R55, R262). -/
theorem Inv.writeError (h : Inv s) (hp : s.phase.isWriting = true) (r : Answers TxAnswer) (reached : List Byte) :
    Inv { s with err := .ioFailure, txAnswers := r, txPartial := reached, txBuf := [] } := by
  have hwait : Inv { s with txAnswers := r, txPartial := reached } := { h with }
  refine hwait.errorEntry (e := .ioFailure .writeError) ?_ ?_ ⟨nofun, nofun, fun _ => .inr hp⟩ <;> intro h0 <;>
    rw [show s.phase = _ from h0] at hp <;> cases hp

/-- A writing phase keeps the invariant, whatever the stream answers. -/
theorem Inv.phaseStep_write (h : Inv s) (hp : s.phase.isWriting = true) (he : s.err = .none) :
    Inv (phaseStep s.phase s) := by
  obtain ⟨-, ht⟩ | ⟨r, -, ht⟩ | ⟨n, r, -, ht⟩ := phaseStep_write_outcomes hp s <;> rw [ht]
  · exact h.waiting hp he
  · cases hph : s.phase with
    | hsSend => exact h.afterResponse hph he r
    | reply => exact h.afterReply hph he r
    | clSend => exact h.afterCloseFrame hph he r
    | _ => rw [hph] at hp; cases hp
  · exact h.writeError hp r _

theorem Inv.stepClClose (h : Inv s) (hp : s.phase = .clClose) : Inv (stepClClose s) := by
  have he := h.close_without_error hp
  unfold Machine.stepClClose
  split
  · exact h.afterClose (h.tx_buf_empty (by rw [hp]; rfl)) (fun _ => h.rxNeed_eq_zero he (by simp [readLength, hp]))
      ⟨fun _ => he, fun _ => h.close_sent_iff.mpr (.inl hp)⟩
  · exact h

/-! ## O1 to O3 -/

/-- Within the listed bytes the tail of the sequence is not seen (R51). -/
theorem rxBytesFrom_listed {m i : Nat} (h : i + m ≤ s.rxBytes.length) :
    rxBytesFrom s m i = (s.rxBytes.drop i).take m := by
  induction m generalizing i with
  | zero => simp [rxBytesFrom]
  | succ m ih =>
    have hi : i < s.rxBytes.length := by omega
    rw [rxBytesFrom, rxByte, if_pos hi, List.getElem?_eq_getElem hi, List.drop_eq_getElem_cons hi, List.take_succ_cons,
      ih (by omega)]

/-- Settles O1: the registers by START's definition, and the bytes to come by the tail. -/
theorem startLeavesTheResetState : Obligations.StartLeavesTheResetState := fun p present key bytes tail e cuts answers ca =>
  ⟨rfl, rfl, rfl, rfl, rfl, rfl, rfl, rfl, rfl, rfl, rfl, rfl, rfl, rfl, rfl, rfl,
    fun m hm => hm.elim (fun ht => rxBytesFrom_finite (s := State.start p present key bytes tail e cuts answers ca) ht m 0)
      fun hm => rxBytesFrom_listed (s := State.start p present key bytes tail e cuts answers ca) ((Nat.zero_add m).le.trans hm),
    fun ht m => rxBytesFrom_unbounded_length (s := State.start p present key bytes tail e cuts answers ca) ht m 0⟩

/-- Settles O2: after START nothing is read, written or raised. -/
theorem resetSatisfiesTheInvariant : Obligations.ResetSatisfiesTheInvariant := by
  have hstart : ∀ (p : Params) (present : Bool) (key bytes : List Byte) (tail : RxTail) (e : RxEnd) (cuts : Answers Nat)
      (answers : Answers TxAnswer) (ca : Bool), Inv (State.start p present key bytes tail e cuts answers ca) :=
    fun p present key bytes tail e cuts answers ca =>
    { phase_in_state := rfl
      consumed_in_bounds := fun _ => Nat.zero_le _
      status_legal := (by decide : closeCodeLegal 1000 = true)
      status_default := fun _ => rfl
      verdict_code := nofun
      status_of_violation := nofun
      reply_verdict := nofun
      stream_closed_iff := by simp [State.start]
      close_sent_iff := by simp [State.start]
      close_without_error := nofun
      error_phase := by simp [State.start]
      tx_buf_empty := fun _ => rfl
      tx_buf_after_error := fun _ => rfl
      tx_buf_written := by simp [State.start]
      reply_frame := nofun
      nothing_before_response := fun _ => rfl
      response_written := by simp [State.start]
      frames_after_response := nofun
      read_progress := fun _ hn => absurd rfl hn
      payload_read_fits := nofun
      length_form := by simp [State.start]
      frame_whole := by simp [State.start] }
  exact ⟨hstart, hstart _ _ _ _ _ _ _ _ _⟩

/-- Settles O3: the error entry, CHECK and each phase keep the invariant. -/
theorem stepKeepsTheInvariant : Obligations.StepKeepsTheInvariant := by
  intro s t h hstep
  obtain ⟨-, hs⟩ | ⟨-, he, -, hs⟩ | ⟨-, he, hp, hs⟩ | ⟨-, he, -, hs⟩ := step_cases s <;> rw [hs] at hstep
  · cases hstep
  · cases hstep
    exact h.finishErrorEntry he
  · obtain ⟨k, c, hv, hx⟩ | ⟨hv, hx⟩ := exec_cases (fetchInstr s) s <;> rw [hx] at hstep <;> cases hstep
    · exact h.latchViolation hp hv
    · exact h.dispatchOf hp hv
  · cases hstep
    obtain he | hp := he
    · cases hp : s.phase with
      | hsStart => exact h.stepHsStart hp he
      | rxHdr => exact h.stepRxHdr hp he
      | rxExt => exact h.stepRxExt hp he
      | rxKey => exact h.stepRxKey hp he
      | rxPay => exact h.stepRxPay hp he
      | clClose => exact h.stepClClose hp
      | check | done => exact h
      | hsSend | reply | clSend => 
        rw [← hp]
        exact h.phaseStep_write (by rw [hp]; rfl) he
    · rw [hp]
      exact h

end Sys2Proof.Machine
end

section
/-! CHECK for the six defined opcodes (43_connection_driver.md R198 to R202, 42_frame_validate.md R153 to R160): a frame that
passes the checks is dispatched, and one that fails a check is rejected as that check says. -/

namespace Sys2Proof.Machine

/-! ## Valid frames -/

section
variable {f : FrameOps}

/-- A data frame with reserved bits 0 is valid when its text, if it is a final text, is UTF-8 (R152 to R156). -/
theorem validate_data (hm : f.masked = true) (hr : f.rsv = 0) {op : BitVec 4} (ho : op.toNat < 3)
    (htext : op = 1 → f.fin = true → utf8Valid f.payload = true) : validate (f.frame op) = .ok := by
  refine validate_eq_ok_iff.mpr ⟨hm, shapeOk_of_data f (by omega), ?_, hr, htext, fun h8 => ?_⟩
  · have h3 : op.toNat = 0 ∨ op.toNat = 1 ∨ op.toNat = 2 := by omega
    rw [isReservedOpcode_eq_false_iff]
    obtain h | h | h := h3 <;> simp [FrameOps.frame, h]
  · rw [show op = 8 from h8] at ho
    exact absurd ho (by decide)

/-- A final, short, masked control frame with reserved bits 0 passes all checks but that of the close payload. -/
theorem validate_control (hm : f.masked = true) (hfin : f.fin = true) (hr : f.rsv = 0) (hlen : f.len.toNat ≤ 125) :
    validate (f.frame 9) = .ok ∧ validate (f.frame 8) = validateClose (f.frame 8) := by
  have hs (op : BitVec 4) : ShapeOk (f.frame op) := shapeOk_of_final_short hfin hlen
  exact ⟨validate_rest (f := f.frame 9) hm (hs 9) rfl hr, validate_rest (f := f.frame 8) hm (hs 8) rfl hr⟩

/-- The encoder's bytes of a final frame of at most 125 bytes (R131, R132). -/
theorem encodeFrame_final_short {op : BitVec 4} (hfin : f.fin = true) (hlen : f.payload.length ≤ 125) :
    encodeFrame (f.frame op) = [byte0 true 0 op, BitVec.ofNat 8 f.payload.length] ++ f.payload := by
  rw [encodeFrame, frameHeader, FrameOps.frame, if_pos hlen, hfin]

end

/-! ## O40, O41, O43 -/

/-- Settles O40: the three data frames are valid, and their dispatch is the echo. -/
theorem dataFramesAreEchoed : Obligations.DataFramesAreEchoed := fun f s hm hr =>
  ⟨exec_of_ok (i := .cont f) s (validate_data (op := 0) hm hr (by decide) (by simp)),
    exec_of_ok (i := .binary f) s (validate_data (op := 2) hm hr (by decide) (by simp)),
    fun htext => exec_of_ok (i := .text f) s (validate_data (op := 1) hm hr (by decide) fun _ => htext)⟩

/-- Settles O41: a valid ping's dispatch is the pong, in the short form. -/
theorem pingIsAnsweredWithPong : Obligations.PingIsAnsweredWithPong := by
  intro f s hm hfin hr hlen hpay
  rw [exec_of_ok (i := .ping f) s (validate_control hm hfin hr hlen).1, dispatchOf, sendReply,
    encodeFrame_final_short hfin (by omega)]
  rfl

/-- The dispatch of a close with a code latches it (R199). -/
theorem peerClose_code {f : FrameOps} {c0 c1 : Byte} {reason : List Byte} (s : State) (h2 : 2 ≤ f.len.toNat)
    (hp : f.payload = c0 :: c1 :: reason) :
    peerClose f s = { s with status := be16 c0 c1, conn := .closing, phase := .clSend } := by
  rw [peerClose, if_pos h2, hp]
  rfl

/-- The dispatch of an empty close keeps STATUS (R199). -/
theorem peerClose_empty {f : FrameOps} (s : State) (h0 : f.len = 0) :
    peerClose f s = { s with conn := .closing, phase := .clSend } := by
  rw [peerClose, if_neg (by simp [h0])]

/-- A close's payload that begins with a code is at least two bytes long. -/
theorem two_le_of_code {f : FrameOps} {c0 c1 : Byte} {reason : List Byte} (hlen : f.payload.length = f.len.toNat)
    (hp : f.payload = c0 :: c1 :: reason) : 2 ≤ f.len.toNat := by
  rw [← hlen, hp]
  simp

/-- Settles O43: an empty close and one with a legal code and a valid reason pass the check of the close payload. -/
theorem closeLatchesThePeersCode : Obligations.CloseLatchesThePeersCode := by
  intro f s hm hfin hr hlen hpay
  have hv := (validate_control hm hfin hr hlen).2
  refine ⟨fun h0 => ?_, fun c0 c1 reason hp hlegal hutf => ?_⟩
  · rw [exec_of_ok (i := .close f) s (hv.trans (validateClose_empty h0)), dispatchOf, peerClose_empty _ h0]
  · have h2 := two_le_of_code hpay hp
    have hc : validateClose (f.frame 8) = .ok := by
      rw [validateClose_code h2 hp, if_neg (by simp [hlegal]), if_neg (by simp [hutf])]
    rw [exec_of_ok (i := .close f) s (hv.trans hc), dispatchOf, peerClose_code _ h2 hp]

/-! ## O46, O48, O50, O51 -/

/-- A control frame that breaks the shape is rejected as CONTROL_SHAPE (R153). -/
theorem exec_controlShape {i : Instr} (s : State) (hm : i.ops.masked = true) (hc : isControl i.opcode = true)
    (hs : 125 < i.ops.len.toNat ∨ i.ops.fin = false) : exec i s = .next (rejected s .controlShape) :=
  exec_of_validate_eq_violation s (validate_shape hm (not_not.mpr ⟨hc, hs⟩))

/-- Settles O46: the eight control opcodes are 8 or above. -/
theorem misshapenControlFramesAreRejected : Obligations.MisshapenControlFramesAreRejected := by
  intro f s hm hs
  refine ⟨?_, ?_, ?_, ?_, ?_, ?_, ?_, ?_⟩ <;>
    exact exec_controlShape s hm ((isControl_iff _).mpr (Nat.le_of_ble_eq_true rfl)) hs

/-- Settles O48: the check of final texts is reached, and it passes over the other frames and the empty payload. -/
theorem invalidFinalTextIsRejected : Obligations.InvalidFinalTextIsRejected := by
  intro f s hm hr
  obtain ⟨hcont, -, htext⟩ := dataFramesAreEchoed f s hm hr
  refine ⟨fun hfin hutf => ?_, fun h => htext fun hfin => ?_, hcont⟩
  · refine exec_of_validate_eq_violation (i := .text f) (k := .invalidText) s ?_
    refine (validate_rest (f := f.frame 1) hm (shapeOk_of_data f (by decide)) rfl hr).trans (if_pos ?_)
    exact ⟨rfl, hfin, hutf⟩
  · obtain h | h := h
    · rw [hfin] at h; cases h
    · rw [h]; rfl

/-- The legal codes, by the two bytes of a close payload (R166). -/
theorem closeCodeLegal_be16_eq_false_iff (c0 c1 : Byte) :
    closeCodeLegal (be16 c0 c1) = false ↔
      5000 ≤ c0.toNat * 256 + c1.toNat ∨
        (c0.toNat * 256 + c1.toNat < 3000 ∧
          c0.toNat * 256 + c1.toNat ∉ [1000, 1001, 1002, 1003, 1007, 1008, 1009, 1010, 1011]) := by
  rw [← be16_toNat, ← Bool.not_eq_true, closeCodeLegal_iff, not_and_or, not_or, Nat.not_lt, Nat.not_le]
  rfl

section
variable {f : FrameOps} {c0 c1 : Byte} {reason : List Byte} (s : State)

/-- A close that reaches the check of its code is judged by the code, then by the reason (R158, R159). -/
theorem validate_close_code (hm : f.masked = true) (hfin : f.fin = true) (hr : f.rsv = 0) (hlen : f.len.toNat ≤ 125)
    (hpay : f.payload.length = f.len.toNat) (hp : f.payload = c0 :: c1 :: reason) :
    validate (f.frame 8) =
      if closeCodeLegal (be16 c0 c1) = false then violation .invalidCloseCode
      else if utf8Valid reason = false then violation .invalidCloseReason
      else .ok :=
  (validate_control hm hfin hr hlen).2.trans (validateClose_code (f := f.frame 8) (two_le_of_code hpay hp) hp)

end

/-- CHECK leaves the validator's verdict in VERDICT (R195). -/
theorem exec_verdict (i : Instr) (s : State) : ∃ t, exec i s = .next t ∧ t.verdict = validate i.frame := by
  obtain ⟨t, hx, ht, -⟩ := checkWritesOnlyItsRegisters i s
  exact ⟨t, hx, congrArg State.verdict ht⟩

/-- Settles O50: the close reaches the check of its code, which fails on the illegal codes alone. -/
theorem illegalCloseCodeIsRejected : Obligations.IllegalCloseCodeIsRejected := by
  intro f s c0 c1 reason hm hfin hr hlen hpay hp
  have hv := validate_close_code hm hfin hr hlen hpay hp
  have hcode := closeCodeLegal_be16_eq_false_iff c0 c1
  refine ⟨fun hill => ?_, fun hleg => ?_⟩
  · rw [if_pos (hcode.mpr hill)] at hv
    exact exec_of_validate_eq_violation (i := .close f) s hv
  · rw [if_neg (mt hcode.mp hleg)] at hv
    obtain ⟨t, hx, ht⟩ := exec_verdict (.close f) s
    refine ⟨t, hx, fun c hc => ?_⟩
    have hbad : validate (f.frame 8) = .err .invalidCloseCode c := ht.symm.trans hc
    rw [hbad] at hv
    split at hv <;> cases hv

/-- Settles O51: the close passes the check of its code and fails that of its reason. -/
theorem invalidCloseReasonIsRejected : Obligations.InvalidCloseReasonIsRejected := by
  intro f s c0 c1 reason hm hfin hr hlen hpay hp hlegal hutf
  refine exec_of_validate_eq_violation (i := .close f) (k := .invalidCloseReason) s ?_
  refine (validate_close_code hm hfin hr hlen hpay hp).trans ?_
  rw [if_neg (by simp [hlegal]), if_pos hutf]

end Sys2Proof.Machine
end

section
/-! The phases of the driver as steps (43_connection_driver.md R191, R192, R205, R206; 40_frame_decode.md R105 to R111;
60_exceptions.md R262): the writes by the stream's answer, the reads of key and payload, and the end of the error entry. -/

namespace Sys2Proof.Machine

variable {s : State}

/-! ## The error entry's CLOSE (R262) -/

/-- With CLOSE answered, or the stream closed before, the error entry ends in DONE. -/
theorem finishErrorEntry_eq_afterClose (h : s.streamClosed = true ∨ s.closeAnswers = true) :
    finishErrorEntry s = afterClose s := by
  obtain ⟨hf, -⟩ | ⟨-, hc, ha⟩ := finishErrorEntry_cases s
  · exact hf
  · simp [hc, ha] at h

/-- The step after an exception is the CLOSE transaction. -/
theorem step_errorEntry {e : Exn} (hc : s.phase.conn = s.conn) (hp : s.phase ≠ .done) :
    step (errorEntry e s) = .next (finishErrorEntry (errorEntry e s)) := by
  have he : (errorEntry e s).err ≠ .none := by cases e <;> exact nofun
  obtain ⟨h, -⟩ | ⟨-, -, -, h⟩ | ⟨-, h, -, -⟩ | ⟨-, h | h, -, -⟩ := step_cases (errorEntry e s)
  · exact absurd hc h
  · exact h
  · exact absurd h he
  · exact absurd h he
  · exact absurd h hp

theorem step_errorEntry_closes {e : Exn} (hc : s.phase.conn = s.conn) (hp : s.phase ≠ .done)
    (h : s.streamClosed = true ∨ s.closeAnswers = true) :
    step (errorEntry e s) = .next (afterClose (errorEntry e s)) := by
  rw [step_errorEntry hc hp, finishErrorEntry_eq_afterClose (s := Machine.errorEntry e s) h]

/-- Settles O58: the CLOSE transaction, answered or not. -/
theorem errorEntryWritesExactly : Obligations.ErrorEntryWritesExactly := by
  intro e s code t
  have ht : errorEntry e s = t := by cases e <;> rfl
  refine ⟨ht, fun hc hp => ⟨fun h => ?_, fun hopen hans => ?_⟩⟩
  · rw [← ht, step_errorEntry_closes hc hp h]
  · have hf : finishErrorEntry (errorEntry e s) = errorEntry e s := by
      simp [finishErrorEntry, hopen, hans]
    rw [← ht, step_errorEntry hc hp, hf]

/-! ## The writing phases (R55) -/

/-- A step of a writing phase, by the stream's answer. -/
theorem step_write {p : Phase} (hp : s.phase = p) (hw : p.isWriting = true) (hc : p.conn = s.conn)
    (he : s.err = .none) :
    (∀ r, s.txAnswers.pop = some (.done, r) → step s = .next (afterWrite p
      { s with txAnswers := r, txLog := s.txLog ++ [writtenString p s], txBuf := [] })) ∧
    (∀ n r, s.txAnswers.pop = some (.error n, r) → step s = .next
      { s with err := .ioFailure, txAnswers := r, txPartial := (writtenString p s).take n, txBuf := [] }) ∧
    (s.txAnswers.pop = none → step s = .next { s with txBuf := writtenString p s }) := by
  have hstep : step s = .next (phaseStep p s) := by
    rw [step_of_phase (by rw [hp, hc]) he (by rw [hp]; rintro rfl; cases hw), hp]
  rw [hstep]
  obtain ⟨hpop, ht⟩ | ⟨r, hpop, ht⟩ | ⟨n, r, hpop, ht⟩ := phaseStep_write_outcomes hw s <;> rw [ht, hpop]
  · exact ⟨nofun, nofun, fun _ => rfl⟩
  · exact ⟨by rintro _ ⟨⟩; rfl, nofun, nofun⟩
  · exact ⟨nofun, by rintro _ _ ⟨⟩; rfl, nofun⟩

/-- The step after a failed write closes the stream (R262). -/
theorem step_writeError {r : Answers TxAnswer} {reached : List Byte} (hc : s.phase.conn = s.conn) (hp : s.phase ≠ .done)
    (ha : s.closeAnswers = true) :
    let t := { s with txAnswers := r, txPartial := reached, err := .ioFailure, txBuf := [] }
    step t = .next (afterClose t) :=
  step_errorEntry_closes (s := { s with txAnswers := r, txPartial := reached }) (e := .ioFailure .writeError) hc hp (.inr ha)

/-- Settles O53: HS_SEND writes TX_BUF. -/
theorem connectionOpensWhenResponseIsWritten : Obligations.ConnectionOpensWhenResponseIsWritten := by
  intro s hconn hp he
  obtain ⟨hdone, herr, hwait⟩ := step_write hp rfl hconn.symm he
  exact ⟨hdone, fun n r hpop => ⟨herr n r hpop, fun _ ha => step_writeError (by rw [hp, hconn]; rfl) (by simp [hp]) ha⟩,
    hwait⟩

/-- Settles O55: REPLY writes TX_BUF. -/
theorem replyIsWrittenWhole : Obligations.ReplyIsWrittenWhole := by
  intro s hconn hp he
  obtain ⟨hdone, herr, hwait⟩ := step_write hp rfl hconn.symm he
  exact ⟨hdone, fun n r hpop => ⟨herr n r hpop, fun _ ha => step_writeError (by rw [hp, hconn]; rfl) (by simp [hp]) ha⟩,
    hwait⟩

/-- The close frame's bytes: `88 02` and STATUS (R206). -/
theorem encodeFrame_closeFrame (status : BitVec 16) :
    encodeFrame (closeFrame status) =
      [0x88, 0x02, BitVec.ofNat 8 (status.toNat / 256), BitVec.ofNat 8 status.toNat] := by
  have hbytes : be16bytes status = [BitVec.ofNat 8 (status.toNat / 256), BitVec.ofNat 8 status.toNat] := by
    simp only [be16bytes, List.cons.injEq, and_true]
    constructor <;> apply BitVec.eq_of_toNat_eq <;> rw [extractLsb'_byte_toNat, BitVec.toNat_ofNat] <;> simp
  have hhead : frameHeader true 8 2 = [0x88, 0x02] := by decide
  rw [encodeFrame, closeFrame, hbytes]
  exact congrArg (· ++ _) hhead

/-- Settles O56: CL_SEND writes the close frame with STATUS. -/
theorem closeFrameCarriesStatus : Obligations.CloseFrameCarriesStatus := by
  intro s hconn hp he
  obtain ⟨hdone, herr, hwait⟩ := step_write hp rfl hconn.symm he
  rw [writtenString, encodeFrame_closeFrame] at hdone herr hwait
  exact ⟨hdone, fun n r hpop => ⟨herr n r hpop, fun _ ha => step_writeError (by rw [hp, hconn]; rfl) (by simp [hp]) ha⟩,
    hwait⟩

/-! ## HS_START (R191) -/

/-- Settles O52: the key is valid when it is present and not empty. -/
theorem handshakeNeedsAKey : Obligations.HandshakeNeedsAKey := by
  intro s hconn hp he
  have hc : s.phase.conn = s.conn := by rw [hp, hconn]; rfl
  have hstep : step s = .next (stepHsStart s) := by
    rw [step_of_phase hc he (by simp [hp]), hp]
    rfl
  refine ⟨fun hpres hkey => ?_, fun hno => ⟨?_, fun _ ha => ?_⟩⟩
  · have hvalid : keyValid s.keyPresent s.keyIn = true := by
      simpa [keyValid, hpres, Nat.one_le_iff_ne_zero] using hkey
    rw [hstep, stepHsStart, if_pos hvalid]
    rfl
  · have hvalid : keyValid s.keyPresent s.keyIn ≠ true := by
      obtain h | h := hno <;> simp [keyValid, h]
    rw [hstep, stepHsStart, if_neg hvalid]
    rfl
  · exact step_errorEntry_closes (e := .handshakeFailure) hc (by simp [hp]) (.inr ha)

/-! ## RX_KEY and RX_PAY (R105 to R111) -/

/-- A key is on the wire under `Unconditional`, and with MASK (R79). -/
theorem keyed_iff {p : Params} {masked : Bool} :
    keyed p masked = true ↔ p.maskKeyPolicy = .unconditional ∨ masked = true := by
  rw [keyed, Bool.or_eq_true, beq_iff_eq]

theorem step_rxKey (hconn : s.conn = .opened) (hp : s.phase = .rxKey) (he : s.err = .none) :
    step s = .next (stepRxKey s) := by
  rw [step_of_phase (by rw [hp, hconn]; rfl) he (by simp [hp]), hp]
  rfl

theorem step_rxPay (hconn : s.conn = .opened) (hp : s.phase = .rxPay) (he : s.err = .none) :
    step s = .next (stepRxPay s) := by
  rw [step_of_phase (by rw [hp, hconn]; rfl) he (by simp [hp]), hp]
  rfl

/-- Settles O28: RX_KEY is one read of four bytes, or a phase change. -/
theorem keyIsReadExactlyWhenOnTheWire : Obligations.KeyIsReadExactlyWhenOnTheWire := by
  intro s hconn hp he
  have hstep := step_rxKey hconn hp he
  refine ⟨fun hpol hmask => ?_, fun cut cuts hpop hk => ?_⟩
  · rw [hstep, stepRxKey, if_neg (by simp [keyed_iff, hpol, hmask])]
  · rw [stepRxKey, if_pos (keyed_iff.mpr hk)] at hstep
    refine ⟨fun k0 k1 k2 k3 hneed hnext hcut => ⟨[k0, k1, k2, k3], ?_⟩, step_of_read_at_end hstep hpop⟩
    rw [step_of_read_at_once hstep hpop hneed (by decide) hnext rfl hcut]
    rfl

/-- Settles O29: the length is checked before any read. -/
theorem oversizePayloadIsNotRead : Obligations.OversizePayloadIsNotRead := by
  intro s hconn hp he hbig
  refine ⟨?_, fun _ ha => step_errorEntry_closes (e := .resourceExhausted s.fLen) (by rw [hp, hconn]; rfl)
    (by simp [hp]) (.inr ha)⟩
  rw [step_rxPay hconn hp he, stepRxPay, if_pos hbig]
  rfl

/-- RX_PAY with a length that fits (R106, R107). -/
theorem stepRxPay_fits (hfit : s.fLen.toNat ≤ s.params.maxPayload.toNat) :
    stepRxPay s = if s.fLen = 0 then takePayload [] s else streamRead s.fLen takePayload s := by
  rw [stepRxPay, if_neg (Nat.not_lt.mpr hfit)]

/-- An empty payload is empty, unmasked or not (R107). -/
theorem takePayload_nil : takePayload [] s = { s with fPayload := [], phase := .check } := by
  rw [takePayload]
  split <;> rfl

/-- Settles O30: RX_PAY is one read of the whole length, or a phase change. -/
theorem payloadIsReadWhole : Obligations.PayloadIsReadWhole := by
  intro s hconn hp he hfit
  have hstep := step_rxPay hconn hp he
  rw [stepRxPay_fits hfit] at hstep
  refine ⟨fun h0 => by rw [hstep, if_pos h0, takePayload_nil], fun cut cuts hpop hcut h0 => ?_⟩
  rw [if_neg h0] at hstep
  refine ⟨fun raw hneed hnext hlen hcut => ⟨raw, ?_⟩, fun hend => step_of_read_at_end hstep hpop hend hcut⟩
  rw [step_of_read_at_once hstep hpop hneed h0 hnext hlen hcut, takePayload]
  simp only [keyed_iff]

end Sys2Proof.Machine
end

section
/-! The codecs from general knowledge (42_frame_validate.md R167, R168; 44_handshake.md R230 to R235): UTF-8 validity as a
concatenation of well-formed sequences, and the sizes of SHA-1's padding, base64 and the upgrade response. -/

namespace Sys2Proof.Machine

/-! ## UTF-8 sequences and the rows of the table (R168) -/

/-- A byte string fills a row of the table: as many bytes as ranges, each in its own. -/
def FillsRow (row : List (Nat × Nat)) (q : List Byte) : Prop :=
  List.Forall₂ (fun range b => range.1 ≤ b.toNat ∧ b.toNat ≤ range.2) row q

theorem matchesRow_iff {row : List (Nat × Nat)} {s : List Byte} :
    matchesRow row s = true ↔ ∃ q rest, s = q ++ rest ∧ FillsRow row q := by
  induction row generalizing s with
  | nil => exact ⟨fun _ => ⟨[], s, rfl, .nil⟩, fun _ => rfl⟩
  | cons range row ih =>
    constructor
    · intro h
      match s, h with
      | b :: s, h =>
        simp only [matchesRow, Bool.and_eq_true, decide_eq_true_eq] at h
        obtain ⟨q, rest, rfl, hq⟩ := ih.mp h.2
        exact ⟨b :: q, rest, rfl, .cons h.1 hq⟩
    · rintro ⟨q, rest, rfl, hq⟩
      cases hq with
      | cons hb hq => simp [matchesRow, hb, ih.mpr ⟨_, rest, rfl, hq⟩]

/-- The well-formed sequences are those that fill a row. -/
theorem utf8Sequence_iff {q : List Byte} : Utf8Sequence q ↔ ∃ row ∈ utf8Rows, FillsRow row q := by
  unfold Utf8Sequence FillsRow
  match q with
  | [] => simp [utf8Rows]
  | [a] => simp [utf8Rows]
  | [a, b] => simp [utf8Rows]; omega
  | [a, b, c] => simp [utf8Rows]; omega
  | [a, b, c, d] => simp [utf8Rows]; omega
  | a :: b :: c :: d :: e :: q => simp [utf8Rows]

/-- No two rows of different lengths share a lead byte. -/
theorem utf8Rows_leads : ∀ row ∈ utf8Rows, ∀ row' ∈ utf8Rows, row.length = row'.length ∨
    (row.headD (0, 0)).2 < (row'.headD (0, 0)).1 ∨ (row'.headD (0, 0)).2 < (row.headD (0, 0)).1 := by
  decide

/-- The lead byte determines the length of the rows that match. -/
theorem length_eq_of_matchesRow {row row' : List (Nat × Nat)} (hrow : row ∈ utf8Rows) (hrow' : row' ∈ utf8Rows)
    {s : List Byte} (h : matchesRow row s = true) (h' : matchesRow row' s = true) : row.length = row'.length := by
  have hlead : ∀ {row : List (Nat × Nat)}, row ∈ utf8Rows → matchesRow row s = true →
      (row.headD (0, 0)).1 ≤ (s.headD 0).toNat ∧ (s.headD 0).toNat ≤ (row.headD (0, 0)).2 := by
    intro row hrow h
    obtain ⟨q, rest, rfl, hq⟩ := matchesRow_iff.mp h
    cases hq with
    | nil => simp [utf8Rows] at hrow
    | cons hb _ => exact hb
  obtain ⟨hlo, hhi⟩ := hlead hrow h
  obtain ⟨hlo', hhi'⟩ := hlead hrow' h'
  obtain heq | hlt | hlt := utf8Rows_leads row hrow row' hrow'
  · exact heq
  · omega
  · omega

/-- The scanner finds a sequence of `n + 1` bytes exactly where a well-formed one of that length begins. -/
theorem seqLen_eq_succ_iff {s : List Byte} {n : Nat} :
    seqLen s = n + 1 ↔ ∃ q rest, s = q ++ rest ∧ q.length = n + 1 ∧ Utf8Sequence q := by
  unfold seqLen
  constructor
  · intro h
    split at h
    next row hfind =>
      have hmatch : matchesRow row s = true := List.find?_some (p := fun row => matchesRow row s) hfind
      obtain ⟨q, rest, rfl, hq⟩ := matchesRow_iff.mp hmatch
      exact ⟨q, rest, rfl, hq.length_eq ▸ h, utf8Sequence_iff.mpr ⟨row, List.mem_of_find?_eq_some hfind, hq⟩⟩
    next => cases h
  · rintro ⟨q, rest, rfl, hlen, hseq⟩
    obtain ⟨row, hrow, hq⟩ := utf8Sequence_iff.mp hseq
    have hmatch : matchesRow row (q ++ rest) = true := matchesRow_iff.mpr ⟨q, rest, rfl, hq⟩
    split
    next row' hfind =>
      have hmatch' : matchesRow row' (q ++ rest) = true :=
        List.find?_some (p := fun row => matchesRow row (q ++ rest)) hfind
      rw [length_eq_of_matchesRow (List.mem_of_find?_eq_some hfind) hrow hmatch' hmatch, hq.length_eq, hlen]
    next hfind => exact absurd hmatch (List.find?_eq_none.mp hfind row hrow)

/-- The scanner within a sequence passes over its other bytes. -/
theorem utf8Scan_append (q rest : List Byte) : utf8Scan q.length (q ++ rest) = utf8Scan 0 rest := by
  induction q with
  | nil => rfl
  | cons b q ih => exact ih

theorem utf8Sequence_ne_nil {q : List Byte} (h : Utf8Sequence q) : q ≠ [] := by
  rintro rfl
  exact h

/-- A well-formed sequence in front does not change the validity of what follows (R167). -/
theorem utf8Valid_append {q : List Byte} (hq : Utf8Sequence q) (rest : List Byte) :
    utf8Valid (q ++ rest) = utf8Valid rest := by
  obtain ⟨b, q, rfl⟩ := List.exists_cons_of_ne_nil (utf8Sequence_ne_nil hq)
  have hlen : seqLen (b :: q ++ rest) = q.length + 1 := seqLen_eq_succ_iff.mpr ⟨b :: q, rest, rfl, rfl, hq⟩
  rw [utf8Valid, List.cons_append, utf8Scan]
  rw [List.cons_append] at hlen
  rw [hlen]
  exact utf8Scan_append q rest

/-- A valid string that is not empty begins with a well-formed sequence (R167). -/
theorem exists_sequence_of_utf8Valid {s : List Byte} (hs : s ≠ []) (h : utf8Valid s = true) :
    ∃ q rest, s = q ++ rest ∧ Utf8Sequence q ∧ utf8Valid rest = true := by
  obtain ⟨b, s, rfl⟩ := List.exists_cons_of_ne_nil hs
  cases hlen : seqLen (b :: s) with
  | zero =>
    rw [utf8Valid, utf8Scan, hlen] at h
    cases h
  | succ n =>
    obtain ⟨q, rest, hsplit, -, hq⟩ := seqLen_eq_succ_iff.mp hlen
    refine ⟨q, rest, hsplit, hq, ?_⟩
    rw [← utf8Valid_append hq rest, ← hsplit, h]

/-- Settles O38: the scanner takes one well-formed sequence after the other off the front. -/
theorem utf8ValidIsConcatenationOfSequences : Obligations.Utf8ValidIsConcatenationOfSequences := by
  intro s
  constructor
  · induction hn : s.length using Nat.strong_induction_on generalizing s with
    | _ n ih =>
      intro h
      by_cases hs : s = []
      · exact ⟨[], hs, nofun⟩
      · obtain ⟨q, rest, rfl, hq, hrest⟩ := exists_sequence_of_utf8Valid hs h
        have hpos := List.length_pos_iff.mpr (utf8Sequence_ne_nil hq)
        obtain ⟨parts, rfl, hparts⟩ := ih rest.length (by rw [← hn, List.length_append]; omega) rest rfl hrest
        exact ⟨q :: parts, rfl, List.forall_mem_cons.mpr ⟨hq, hparts⟩⟩
  · rintro ⟨parts, rfl, hparts⟩
    induction parts with
    | nil => rfl
    | cons q parts ih =>
      obtain ⟨hq, hparts⟩ := List.forall_mem_cons.mp hparts
      rw [List.flatten_cons, utf8Valid_append hq]
      exact ih hparts

/-! ## SHA-1's padding, base64 and the response (R230 to R235) -/

theorem length_shaPad (m : List Byte) :
    (shaPad m).length = m.length + 9 + (119 - m.length % 64) % 64 := by
  simp [shaPad]
  omega

/-- Four characters for every three bytes begun (R234). -/
theorem length_base64 (s : List Byte) : (base64 s).length = (s.length + 2) / 3 * 4 := by
  induction s using base64.induct with
  | case1 x y z r ih => simp [base64, base64Group, ih]; omega
  | case2 x y | case3 x => simp [base64, base64Group]
  | case4 => rfl

theorem length_sha1 (m : List Byte) : (sha1 m).length = 20 := rfl

theorem length_acceptHash (p : Params) (key : List Byte) : (acceptHash p key).length = 28 := by
  rw [acceptHash, length_base64, length_sha1]

/-- The response's fixed text has 101 bytes with the normative literals (R235). -/
theorem length_renderUpgradeResponse (a : List Byte) :
    (renderUpgradeResponse Params.normative a).length = 101 + a.length := by
  have hstatus : Params.normative.upgradeStatusLine.length = 32 := rfl
  have hname : Params.normative.acceptHeaderName.length = 20 := rfl
  simp [renderUpgradeResponse, hstatus, hname, crlf, upgradeHeader, connectionHeader]
  omega

/-- Settles O54, by the length of each part. -/
theorem handshakeCodecSizes : Obligations.HandshakeCodecSizes := by
  refine ⟨fun m => ?_, length_base64, fun p key => ⟨length_acceptHash p key, ?_⟩⟩
  · rw [length_shaPad]
    refine ⟨by omega, by omega, by omega, (119 - m.length % 64) % 64, ?_⟩
    simp [shaPad]
  · rw [length_renderUpgradeResponse, length_acceptHash]

end Sys2Proof.Machine
end

section
/-! A read under every cut of the stream (20_memory.md R53, R54): the answers that bring bytes, the states of a read under
way, and the run from its beginning to its end. -/

namespace Sys2Proof.Machine

/-! ## The answers that bring bytes (R54) -/

/-- The first answer of `a` that brings a byte, past answers `Data([])`, allows `cut` bytes and leaves the answers `r`. -/
inductive FirstCut : Answers Nat → Nat → Answers Nat → Prop
  | brings {a r : Answers Nat} {cut : Nat} : a.pop = some (cut, r) → 0 < cut → FirstCut a cut r
  | skips {a a' r : Answers Nat} {cut : Nat} : a.pop = some (0, a') → FirstCut a' cut r → FirstCut a cut r

/-- The number of listed answers that bring a byte. -/
def positives (l : List Nat) : Nat := (l.filter fun cut => decide (0 < cut)).length

theorem firstCut_listed (again : List Nat) {l : List Nat} (h : 0 < positives l) :
    ∃ cut r, FirstCut ⟨l, again⟩ cut ⟨r, again⟩ ∧ positives l = positives r + 1 := by
  induction l with
  | nil => cases h
  | cons x l ih =>
    rcases Nat.eq_zero_or_pos x with rfl | hx
    · obtain ⟨cut, r, hfirst, hcount⟩ := ih h
      exact ⟨cut, r, .skips (Answers.pop_listed _ _ _) hfirst, hcount⟩
    · exact ⟨x, l, .brings (Answers.pop_listed _ _ _) hx, by simp [positives, hx]⟩

theorem firstCut_again {again : List Nat} (h : ∃ cut ∈ again, 0 < cut) (l : List Nat) :
    ∃ cut r, FirstCut ⟨l, again⟩ cut ⟨r, again⟩ := by
  induction l with
  | nil =>
    match again, h with
    | y :: ys, h =>
      rcases Nat.eq_zero_or_pos y with rfl | hy
      · have hpos : 0 < positives ys := by
          obtain ⟨cut, hmem, hcut⟩ := h
          obtain rfl | hmem := List.mem_cons.mp hmem
          · cases hcut
          · exact List.length_pos_of_mem (List.mem_filter.mpr ⟨hmem, decide_eq_true hcut⟩)
        obtain ⟨cut, r, hfirst, -⟩ := firstCut_listed (0 :: ys) hpos
        exact ⟨cut, r, .skips rfl hfirst⟩
      · exact ⟨y, ys, .brings rfl hy⟩
  | cons x l ih =>
    rcases Nat.eq_zero_or_pos x with rfl | hx
    · obtain ⟨cut, r, hfirst⟩ := ih
      exact ⟨cut, r, .skips (Answers.pop_listed _ _ _) hfirst⟩
    · exact ⟨x, l, .brings (Answers.pop_listed _ _ _) hx⟩

/-- Answers that bring `n + 1` bytes have a first one that brings a byte, and the others bring `n`. -/
theorem Brings.firstCut {n : Nat} {a : Answers Nat} (h : Brings (n + 1) a) :
    ∃ cut r, FirstCut a cut r ∧ Brings n r := by
  obtain ⟨listed, again⟩ := a
  obtain h | h := h
  · obtain ⟨cut, r, hfirst, hcount⟩ := firstCut_listed (l := listed) again (Nat.lt_of_lt_of_le (Nat.succ_pos n) h)
    have hle : n + 1 ≤ positives listed := h
    have hr : n ≤ positives r := by omega
    exact ⟨cut, _, hfirst, .inl hr⟩
  · obtain ⟨cut, r, hfirst⟩ := firstCut_again h listed
    exact ⟨cut, _, hfirst, .inr h⟩

theorem Brings.mono {m n : Nat} {a : Answers Nat} (h : Brings n a) (hmn : m ≤ n) : Brings m a :=
  h.imp_left hmn.trans

/-! ## A read under way (R53) -/

/-- The state `s` with a read of `n` bytes under way, `m` of them gathered, and the RX answers `cuts` to come. -/
def midRead (n : BitVec 64) (m : Nat) (cuts : Answers Nat) (s : State) : State :=
  { s with rxNeed := n - BitVec.ofNat 64 m, rxAcc := rxNext m s, rxPos := s.rxPos + m, rxCuts := cuts }

/-- The state `s` with the bytes `c` read and no read under way; RX_ACC keeps its bytes where nothing was read. -/
def consume (c : List Byte) (cuts : Answers Nat) (s : State) : State :=
  { s with rxNeed := 0, rxAcc := if c = [] then s.rxAcc else c, rxPos := s.rxPos + c.length, rxCuts := cuts }

/-- In `s`, wherever its read stands, a step is a transaction of `StreamRead(n)` that goes on with `cont`. -/
def StandsInRead (n : BitVec 64) (cont : List Byte → State → State) (s : State) : Prop :=
  ∀ need acc pos cuts,
    step { s with rxNeed := need, rxAcc := acc, rxPos := pos, rxCuts := cuts } =
      .next (streamRead n cont { s with rxNeed := need, rxAcc := acc, rxPos := pos, rxCuts := cuts })

section
variable {s : State} {n : BitVec 64} {m : Nat} {cuts r : Answers Nat} {cut : Nat} {cont : List Byte → State → State}

theorem rxNext_length_of_le {k : Nat} (h : m ≤ (rxNext k s).length) : (rxNext m s).length = m := by
  rw [← rxNext_take (h.trans (rxNext_length_le k s)) s, List.length_take_of_le h]

theorem rxNext_add_midRead (hl : (rxNext m s).length = m) (j : Nat) :
    rxNext (m + j) s = rxNext m s ++ rxNext j (midRead n m cuts s) :=
  rxNext_after (s := s) (t := midRead n m cuts s) rfl rfl rfl hl j

theorem midRead_need (hm : m ≤ n.toNat) : (midRead n m cuts s).rxNeed.toNat = n.toNat - m := by
  have hlt := n.isLt
  simp only [midRead, BitVec.toNat_sub, BitVec.toNat_ofNat]
  omega

theorem midRead_need_ne_zero (hm : m < n.toNat) : (midRead n m cuts s).rxNeed ≠ 0 := by
  intro h
  have := midRead_need (s := s) (cuts := cuts) hm.le
  rw [h] at this
  simp at this
  omega

/-- The bytes of an answer are gathered. -/
theorem takeData_midRead (hl : (rxNext m s).length = m) {c : List Byte}
    (hc : c = rxNext c.length (midRead n m cuts s)) (hpop : cuts.pop = some (cut, r)) :
    takeData c (midRead n m cuts s) = midRead n (m + c.length) r s := by
  have hneed : n - BitVec.ofNat 64 m - BitVec.ofNat 64 c.length = n - BitVec.ofNat 64 (m + c.length) := by
    rw [BitVec.ofNat_add, sub_add_eq_sub_sub]
  have hacc : rxNext m s ++ c = rxNext (m + c.length) s := by rw [rxNext_add_midRead (n := n) (cuts := cuts) hl, ← hc]
  rw [takeData, midRead, midRead, ← hneed, ← hacc, ← Nat.add_assoc, Answers.rest_of_pop hpop]

/-- An answer of no bytes leaves the read where it is (R54). -/
theorem streamRead_midRead_zero (hm : m < n.toNat) (hl : (rxNext m s).length = m) (hpop : cuts.pop = some (0, r)) :
    streamRead n cont (midRead n m cuts s) = midRead n m r s := by
  have htake := takeData_midRead (n := n) (c := []) hl rfl hpop
  simp only [streamRead, beginRead_under_way (midRead_need_ne_zero hm), rxAnswer_zero (s := midRead n m cuts s) hpop,
    htake]
  exact if_neg (midRead_need_ne_zero hm)

/-- A request that is not answered waits (R300). -/
theorem streamRead_midRead_none (hm : m < n.toNat) (hpop : cuts.pop = none) :
    streamRead n cont (midRead n m cuts s) = midRead n m cuts s := by
  simp only [streamRead, beginRead_under_way (midRead_need_ne_zero hm), rxAnswer_none (s := midRead n m cuts s) hpop]

/-- An answer that may bring bytes brings at least one while there is one, and the last byte owed ends the read. -/
theorem streamRead_midRead_brings (hm : m < (rxNext n.toNat s).length) (hpop : cuts.pop = some (cut, r)) (hcut : 0 < cut) :
    ∃ m', m < m' ∧ m' ≤ (rxNext n.toNat s).length ∧
      streamRead n cont (midRead n m cuts s) =
        if m' = n.toNat then cont (rxNext m' s) (midRead n m' r s) else midRead n m' r s := by
  have hle := rxNext_length_le n.toNat s
  have hmn : m < n.toNat := by omega
  have hl : (rxNext m s).length = m := rxNext_length_of_le hm.le
  have hneed := midRead_need (s := s) (cuts := cuts) hmn.le
  obtain ⟨j, hj⟩ : ∃ j, j = min cut (n.toNat - m) := ⟨_, rfl⟩
  have hone : (rxNext 1 (midRead n m cuts s)).length = 1 := by
    have := rxNext_length_of_le (m := m + 1) hm
    rw [rxNext_add_midRead (n := n) (cuts := cuts) hl, List.length_append, hl] at this
    omega
  have hlen : (rxNext (m + j) s).length = m + (rxNext j (midRead n m cuts s)).length := by
    rw [rxNext_add_midRead (n := n) (cuts := cuts) hl, List.length_append, hl]
  have hle' : (rxNext (m + j) s).length ≤ (rxNext n.toNat s).length := by
    rw [← rxNext_take (by omega : m + j ≤ n.toNat) s, List.length_take]
    omega
  have hne : rxNext j (midRead n m cuts s) ≠ [] := by
    rw [Ne, rxNext_eq_nil_iff (by omega)]
    intro h
    rw [h] at hone
    cases hone
  have hans := rxAnswer_of_pop (max := n.toNat - m) (s := midRead n m cuts s) hpop hcut
  rw [← hj, if_neg hne] at hans
  have htake := takeData_midRead (n := n) hl (rxNext_of_length j (midRead n m cuts s)).symm hpop
  have hpos := List.length_pos_iff.mpr hne
  generalize rxNext j (midRead n m cuts s) = c at *
  refine ⟨m + c.length, by omega, by omega, ?_⟩
  have hz : (midRead n (m + c.length) r s).rxNeed = 0 ↔ m + c.length = n.toNat := by
    constructor
    · intro h
      have := midRead_need (s := s) (cuts := r) (n := n) (m := m + c.length) (by omega)
      rw [h] at this
      simp at this
      omega
    · intro h
      simp [midRead, h]
  simp only [streamRead, beginRead_under_way (midRead_need_ne_zero hmn), hneed, hans, htake, hz]
  rfl

/-! ## The run of a read -/

/-- Answers of no bytes are passed over. -/
theorem reaches_firstCut (hr : StandsInRead n cont s) (hm : m < n.toNat) (hl : (rxNext m s).length = m)
    (hfirst : FirstCut cuts cut r) :
    ∃ k cuts', Reaches k (midRead n m cuts s) (midRead n m cuts' s) ∧ cuts'.pop = some (cut, r) ∧ 0 < cut := by
  induction hfirst with
  | brings hpop hcut => exact ⟨0, _, reaches_refl _, hpop, hcut⟩
  | skips hpop _ ih =>
    obtain ⟨k, cuts', hrun, hpop', hcut⟩ := ih
    have hstep := hr (n - BitVec.ofNat 64 m) (rxNext m s) (s.rxPos + m)
    exact ⟨k + 1, cuts', reaches_succ ((hstep _).trans (congrArg _ (streamRead_midRead_zero hm hl hpop))) hrun, hpop', hcut⟩

/-- A read under way gathers every byte there is, of those it owes: it ends when that is all of them, and it stands with
what there was when the stream has no more. -/
theorem reaches_gathered (hr : StandsInRead n cont s) {l extra : Nat} (hlen : (rxNext n.toNat s).length = l)
    (hm : m < n.toNat) (hml : m ≤ l) (hb : Brings (l - m + extra) cuts) :
    ∃ k r, Brings extra r ∧
      ((l = n.toNat ∧ Reaches (k + 1) (midRead n m cuts s) (cont (rxNext l s) (midRead n l r s))) ∨
        (l < n.toNat ∧ Reaches k (midRead n m cuts s) (midRead n l r s))) := by
  induction hd : l - m using Nat.strong_induction_on generalizing m cuts with
  | _ d ih =>
    obtain rfl | hlt := hml.eq_or_lt
    · exact ⟨0, cuts, hb.mono (by omega), .inr ⟨hm, reaches_refl _⟩⟩
    · have hl : (rxNext m s).length = m := rxNext_length_of_le (hlen ▸ hml)
      obtain ⟨cut, r, hfirst, hbr⟩ := Brings.firstCut (n := l - m - 1 + extra) (hb.mono (by omega))
      obtain ⟨k, cuts', hrun, hpop, hcut⟩ := reaches_firstCut hr hm hl hfirst
      obtain ⟨m', hmm', hm'l, hread⟩ := streamRead_midRead_brings (n := n) (cont := cont) (hlen ▸ hlt) hpop hcut
      rw [hlen] at hm'l
      have hstep := (hr (n - BitVec.ofNat 64 m) (rxNext m s) (s.rxPos + m) cuts').trans (congrArg _ hread)
      by_cases hend : m' = n.toNat
      · have hln : l = m' := by have := rxNext_length_le n.toNat s; omega
        rw [if_pos hend] at hstep
        rw [hln]
        exact ⟨k, r, hbr.mono (by omega), .inl ⟨hend, reaches_trans hrun (reaches_succ hstep (reaches_refl _))⟩⟩
      · rw [if_neg hend] at hstep
        have hm'n : m' < n.toNat := by have := rxNext_length_le n.toNat s; omega
        obtain ⟨k', r', hbr', hruns⟩ := ih (l - m') (by omega) hm'n hm'l (cuts := r) (hbr.mono (by omega)) rfl
        refine ⟨k + (k' + 1), r', hbr', hruns.imp (And.imp_right fun h => ?_) (And.imp_right fun h => ?_)⟩
        · exact reaches_trans (k := k' + 1 + 1) hrun (reaches_succ hstep h)
        · exact reaches_trans hrun (reaches_succ hstep h)

/-- The first step of a read is that of a read with no byte gathered. -/
theorem step_midRead_zero (hr : StandsInRead n cont s) (hneed : s.rxNeed = 0) (hn : n ≠ 0) :
    step (midRead n 0 s.rxCuts s) = step s := by
  have hmid : midRead n 0 s.rxCuts s = beginRead n s := by
    rw [beginRead_fresh hneed, midRead, BitVec.sub_zero]
    rfl
  have hbegin : beginRead n (beginRead n s) = beginRead n s := beginRead_under_way (beginRead_need_ne_zero hn)
  refine (hr _ _ _ _).trans (Eq.trans (congrArg _ ?_) (hr s.rxNeed s.rxAcc s.rxPos s.rxCuts).symm)
  show streamRead n cont (midRead n 0 s.rxCuts s) = streamRead n cont s
  simp only [hmid, streamRead, hbegin]

theorem reaches_of_step_eq {k : Nat} {t u : State} (h : step t = step s) (hrun : Reaches (k + 1) t u) :
    Reaches (k + 1) s u := by
  obtain ⟨v, hv, hrest⟩ := run_next_inv Sys2Proof.core k (s := t) hrun
  exact reaches_succ (h.symm.trans hv) hrest

theorem midRead_all (hn : n ≠ 0) (hlen : (rxNext n.toNat s).length = n.toNat) :
    midRead n n.toNat r s = consume (rxNext n.toNat s) r s := by
  have hne : rxNext n.toNat s ≠ [] := fun h => hn (BitVec.eq_of_toNat_eq (by rw [← hlen, h]; rfl))
  rw [midRead, consume, hlen, if_neg hne, BitVec.ofNat_toNat, BitVec.setWidth_eq, BitVec.sub_self]
  rfl

/-- A read not yet begun, all of whose bytes are on the stream, ends with them under every cut (R53, R54). -/
theorem reaches_of_read (hr : StandsInRead n cont s) (hneed : s.rxNeed = 0) (hn : n ≠ 0) {c : List Byte}
    (hc : rxNext n.toNat s = c) (hlen : c.length = n.toNat) {extra : Nat} (hb : Brings (c.length + extra) s.rxCuts) :
    ∃ k r, Reaches k s (cont c (consume c r s)) ∧ Brings extra r := by
  subst hc
  have hpos : 0 < n.toNat := Nat.pos_of_ne_zero fun h => hn (BitVec.eq_of_toNat_eq h)
  obtain ⟨k, r, hbr, ⟨-, hrun⟩ | ⟨hlt, -⟩⟩ := reaches_gathered (m := 0) hr hlen hpos (Nat.zero_le _) (hlen ▸ hb)
  · rw [midRead_all hn hlen] at hrun
    exact ⟨k + 1, r, reaches_of_step_eq (step_midRead_zero hr hneed hn) hrun, hbr⟩
  · exact absurd hlt (lt_irrefl _)

end

end Sys2Proof.Machine
end

section
/-! The decoder's run from the start of a frame to CHECK (40_frame_decode.md R101 to R113): each phase takes its bytes off
the stream, under every cut. -/

namespace Sys2Proof.Machine

/-- OPEN, in phase `q`, with no error and no read begun. -/
structure BetweenReads (q : Phase) (s : State) : Prop where
  conn : s.conn = .opened
  phase : s.phase = q
  err : s.err = .none
  need : s.rxNeed = 0

/-! ## What each phase leaves (R101 to R109) -/

/-- The base header in the frame register set (R101). -/
def afterHeader (b0 b1 : Byte) (s : State) : State :=
  { s with
    fFin := finBit b0, fRsv := rsvBits b0, fOpcode := opcodeBits b0, fMask := maskBit b1, fLen7 := len7Bits b1
    phase := .rxExt }

/-- The length in the frame register set (R102 to R104). -/
def afterLength (len : BitVec 64) (s : State) : State := { s with fLen := len, phase := .rxKey }

/-- The key in the frame register set, when one was read (R105). -/
def afterKey (key : Option Key) (s : State) : State := { s with fKey := key.getD s.fKey, phase := .rxPay }

section
variable {s : State} {extra : Nat}

theorem standsInRead_rxHdr (h : BetweenReads .rxHdr s) : StandsInRead 2 takeHeader s :=
  fun _ _ _ _ => step_rxHdr h.conn h.phase h.err

theorem standsInRead_ext16 (h : BetweenReads .rxExt s) (h126 : s.fLen7 = 126) : StandsInRead 2 takeExt16 s :=
  fun _ _ _ _ => (step_rxExt (by exact h.conn) (by exact h.phase) (by exact h.err)).trans
    (congrArg _ (stepRxExt_ext16 (by exact h126)))

theorem standsInRead_ext64 (h : BetweenReads .rxExt s) (h127 : s.fLen7 = 127) : StandsInRead 8 takeExt64 s :=
  fun _ _ _ _ => (step_rxExt (by exact h.conn) (by exact h.phase) (by exact h.err)).trans
    (congrArg _ (stepRxExt_ext64 (by exact h127)))

theorem standsInRead_rxKey (h : BetweenReads .rxKey s) (hk : keyed s.params s.fMask = true) :
    StandsInRead 4 takeKey s :=
  fun _ _ _ _ => (step_rxKey (by exact h.conn) (by exact h.phase) (by exact h.err)).trans
    (congrArg _ (if_pos (by exact hk)))

theorem standsInRead_rxPay (h : BetweenReads .rxPay s) (hfit : s.fLen.toNat ≤ s.params.maxPayload.toNat)
    (h0 : s.fLen ≠ 0) : StandsInRead s.fLen takePayload s :=
  fun _ _ _ _ => (step_rxPay (by exact h.conn) (by exact h.phase) (by exact h.err)).trans
    (congrArg _ ((stepRxPay_fits (by exact hfit)).trans (if_neg (by exact h0))))

/-- Consuming nothing changes no register but the cuts. -/
theorem consume_nil (hneed : s.rxNeed = 0) : consume [] s.rxCuts s = s := by
  rw [consume, if_pos rfl, ← hneed]
  rfl

/-- RX_HDR takes two bytes (R101). -/
theorem reaches_afterHeader (h : BetweenReads .rxHdr s) {b0 b1 : Byte} (hc : rxNext 2 s = [b0, b1])
    (hb : Brings (2 + extra) s.rxCuts) :
    ∃ k cuts, Reaches k s (afterHeader b0 b1 (consume [b0, b1] cuts s)) ∧ Brings extra cuts :=
  reaches_of_read (standsInRead_rxHdr h) h.need (by decide) hc rfl hb

/-- RX_EXT takes the extended length's bytes (R102 to R104). -/
theorem reaches_afterLength (h : BetweenReads .rxExt s) {len : BitVec 64} (hfields : LengthFields s.fLen7 len)
    {c : List Byte} (hc : c = encodeExt (LenForm.ofLen7 s.fLen7) len) (hnext : rxNext c.length s = c)
    (hb : Brings (c.length + extra) s.rxCuts) :
    ∃ k cuts, Reaches k s (afterLength len (consume c cuts s)) ∧ Brings extra cuts := by
  obtain ⟨hle, hform⟩ | ⟨h126, hform⟩ | ⟨h127, hform⟩ := LenForm.ofLen7_cases s.fLen7 <;> rw [hform] at hc
  · subst hc
    have hlen := (lengthFields_short hle).mp hfields
    have hstep := step_rxExt h.conn h.phase h.err
    rw [stepRxExt_short hle, hlen] at hstep
    refine ⟨1, s.rxCuts, reaches_succ hstep ?_, hb.mono (by simp)⟩
    show Reaches 0 _ (afterLength len (consume [] s.rxCuts s))
    rw [consume_nil h.need]
    exact reaches_refl _
  · have hsmall := lengthFields_ext16.mp (h126 ▸ hfields)
    have hval : (be16 ((len.setWidth 16).extractLsb' 8 8) ((len.setWidth 16).extractLsb' 0 8)).setWidth 64 = len := by
      rw [be16_be16bytes]
      apply BitVec.eq_of_toNat_eq
      simp only [BitVec.toNat_setWidth]
      omega
    subst hc
    obtain ⟨k, cuts, hrun, hbr⟩ := reaches_of_read (standsInRead_ext16 h h126) h.need (by decide) hnext rfl hb
    refine ⟨k, cuts, ?_, hbr⟩
    rwa [encodeExt, be16bytes, takeExt16, hval] at hrun
  · subst hc
    obtain ⟨k, cuts, hrun, hbr⟩ := reaches_of_read (standsInRead_ext64 h h127) h.need (by decide) hnext rfl hb
    refine ⟨k, cuts, ?_, hbr⟩
    rwa [takeExt64, encodeExt, be64_be64bytes] at hrun

/-- RX_KEY takes the key's bytes (R105). -/
theorem reaches_afterKey (h : BetweenReads .rxKey s) {key : Option Key} (hkeyed : key.isSome = keyed s.params s.fMask)
    (hnext : rxNext (encodeKey key).length s = encodeKey key) (hb : Brings ((encodeKey key).length + extra) s.rxCuts) :
    ∃ k cuts, Reaches k s (afterKey key (consume (encodeKey key) cuts s)) ∧ Brings extra cuts := by
  cases key with
  | none =>
    have hstep := step_rxKey h.conn h.phase h.err
    rw [stepRxKey, if_neg (by rw [← hkeyed]; exact nofun)] at hstep
    refine ⟨1, s.rxCuts, reaches_succ hstep ?_, hb.mono (by simp)⟩
    rw [encodeKey, consume_nil h.need]
    exact reaches_refl _
  | some key =>
    exact reaches_of_read (standsInRead_rxKey h hkeyed.symm) h.need (by decide) hnext rfl hb

/-- RX_PAY takes the payload's bytes (R106 to R111). -/
theorem reaches_takePayload (h : BetweenReads .rxPay s) (hfit : s.fLen.toNat ≤ s.params.maxPayload.toNat)
    {raw : List Byte} (hnext : rxNext s.fLen.toNat s = raw) (hlen : raw.length = s.fLen.toNat)
    (hb : Brings (raw.length + extra) s.rxCuts) :
    ∃ k cuts, Reaches k s (takePayload raw (consume raw cuts s)) ∧ Brings extra cuts := by
  by_cases h0 : s.fLen = 0
  · have hnil : raw = [] := List.length_eq_zero_iff.mp (by rw [hlen, h0]; rfl)
    subst hnil
    have hstep := step_rxPay h.conn h.phase h.err
    rw [stepRxPay_fits hfit, if_pos h0] at hstep
    refine ⟨1, s.rxCuts, reaches_succ hstep ?_, hb.mono (by simp)⟩
    rw [consume_nil h.need]
    exact reaches_refl _
  · exact reaches_of_read (standsInRead_rxPay h hfit h0) h.need h0 hnext hlen hb

end

end Sys2Proof.Machine
end

section
/-! Whole frames under every cut of the stream (40_frame_decode.md R112, R113; 43_connection_driver.md R193 to R207): the
decoder's phases reach CHECK with what `decode` gives, and the driver takes the frame from there. -/

namespace Sys2Proof.Machine

/-! ## From the start of a frame to RX_PAY -/

section
variable {s : State} {m : Nat} {c r : List Byte}

/-- The bytes in front of the next ones are the next ones of their number. -/
theorem rxNext_front (h : rxNext m s = c ++ r) : rxNext c.length s = c := by
  have hle : c.length ≤ m := by
    have := rxNext_length_le m s
    rw [h, List.length_append] at this
    omega
  rw [← rxNext_take hle s, h, List.take_left]

/-- Once the bytes in front are consumed, the next ones are those after them. -/
theorem rxNext_behind (h : rxNext m s = c ++ r) {t : State} (hb : t.rxBytes = s.rxBytes) (ht : t.rxTail = s.rxTail)
    (hp : t.rxPos = s.rxPos + c.length) : rxNext (m - c.length) t = r := by
  have hle : c.length ≤ m := by
    have := rxNext_length_le m s
    rw [h, List.length_append] at this
    omega
  have hfront := rxNext_front h
  have hafter := rxNext_after hb ht hp (by rw [hfront]) (m - c.length)
  rw [Nat.add_sub_cancel' hle, h, hfront] at hafter
  exact (List.append_cancel_left hafter).symm

/-- The state in RX_PAY once a header is decoded, with the RX answers `cuts` left. -/
def atPayload (b0 b1 : Byte) (len : BitVec 64) (key : Option Key) (cuts : Answers Nat) (s : State) : State :=
  afterKey key (consume (encodeKey key) cuts
    (afterLength len (consume (encodeExt (LenForm.ofLen7 (len7Bits b1)) len) cuts
      (afterHeader b0 b1 (consume [b0, b1] cuts s)))))

variable {b0 b1 : Byte} {len : BitVec 64} {key : Option Key}

theorem betweenReads_atPayload (h : BetweenReads .rxHdr s) (cuts : Answers Nat) :
    BetweenReads .rxPay (atPayload b0 b1 len key cuts s) := ⟨h.conn, rfl, h.err, rfl⟩

theorem headerBytes_eq (h : key.isSome = keyed s.params (maskBit b1)) :
    headerBytes s.params b1 = 2 + (encodeExt (LenForm.ofLen7 (len7Bits b1)) len).length + (encodeKey key).length := by
  rw [headerBytes, headerLength, ← h, encodeExt_length, encodeKey_length]

/-- The header's bytes are consumed, and no more (R101 to R105). -/
theorem atPayload_rxPos (h : key.isSome = keyed s.params (maskBit b1)) (cuts : Answers Nat) :
    (atPayload b0 b1 len key cuts s).rxPos = s.rxPos + headerBytes s.params b1 := by
  rw [headerBytes_eq (len := len) h]
  show s.rxPos + 2 + _ + _ = _
  omega

/-- The phases RX_HDR to RX_KEY take a whole header off the stream, under every cut. -/
theorem reaches_atPayload (h : BetweenReads .rxHdr s) (hhead : HeaderOf s.params (rxNext m s) b0 b1 len key r)
    {extra : Nat} (hb : Brings (headerBytes s.params b1 + extra) s.rxCuts) :
    ∃ k cuts, Reaches k s (atPayload b0 b1 len key cuts s) ∧ Brings extra cuts ∧
      ∃ m', rxNext m' (atPayload b0 b1 len key cuts s) = r := by
  obtain ⟨hfields, hkeyed, hbytes⟩ := hhead
  have hbytes : rxNext m s = [b0, b1] ++ (encodeExt (LenForm.ofLen7 (len7Bits b1)) len ++ (encodeKey key ++ r)) := hbytes
  rw [headerBytes_eq (len := len) hkeyed, Nat.add_assoc, Nat.add_assoc] at hb
  obtain ⟨k1, cuts1, hrun1, hb1⟩ := reaches_afterHeader h (rxNext_front hbytes) hb
  have hnext1 := rxNext_behind hbytes (t := afterHeader b0 b1 (consume [b0, b1] cuts1 s)) rfl rfl rfl
  obtain ⟨k2, cuts2, hrun2, hb2⟩ := reaches_afterLength (s := afterHeader b0 b1 (consume [b0, b1] cuts1 s))
    ⟨h.conn, rfl, h.err, rfl⟩ hfields rfl (rxNext_front hnext1) hb1
  have hnext2 := rxNext_behind hnext1
    (t := afterLength len (consume (encodeExt (LenForm.ofLen7 (len7Bits b1)) len) cuts2
      (afterHeader b0 b1 (consume [b0, b1] cuts1 s)))) rfl rfl rfl
  obtain ⟨k3, cuts3, hrun3, hb3⟩ := reaches_afterKey
    (s := afterLength len (consume (encodeExt (LenForm.ofLen7 (len7Bits b1)) len) cuts2
      (afterHeader b0 b1 (consume [b0, b1] cuts1 s))))
    ⟨h.conn, rfl, h.err, rfl⟩ hkeyed (rxNext_front hnext2) hb2
  exact ⟨_, cuts3, reaches_trans hrun1 (reaches_trans hrun2 hrun3), hb3, _,
    rxNext_behind hnext2 (t := atPayload b0 b1 len key cuts3 s) rfl rfl rfl⟩

end

/-! ## CHECK with the decoded instruction (R112, R113) -/

/-- The payload register holds the payload unmasked by the key that was read (R109). -/
theorem unmask_eq {p : Params} {masked : Bool} {key : Option Key} (h : key.isSome = keyed p masked) (raw : List Byte)
    (old : Key) : (if keyed p masked then applyMask raw (key.getD old) else raw) = unmask raw key := by
  rw [← h]
  cases key <;> rfl

/-- The state in CHECK with the frame of `i` received: `n` more bytes are consumed, RX_ACC holds `acc`, and the RX answers
`cuts` are left. -/
def atChecked (i : Instr) (n : Nat) (acc : List Byte) (cuts : Answers Nat) (s : State) : State :=
  { loadFrame i s with phase := .check, rxPos := s.rxPos + n, rxNeed := 0, rxAcc := acc, rxCuts := cuts }

/-- The phases' last state has the decoded instruction in the frame register set, and differs from the first one
otherwise in PHASE and the read's registers only. -/
theorem takePayload_atPayload {s : State} {b0 b1 : Byte} {len : BitVec 64} {key : Option Key} {raw : List Byte}
    (hfield : (LenForm.ofLen7 (len7Bits b1)).len7 len = len7Bits b1)
    (hkeyed : key.isSome = keyed s.params (maskBit b1)) (hraw : raw.length = len.toNat) (cuts cuts' : Answers Nat) :
    takePayload raw (consume raw cuts' (atPayload b0 b1 len key cuts s)) =
      atChecked (decodedInstr b0 b1 len key raw) (headerBytes s.params b1 + len.toNat)
        (consume raw s.rxCuts (atPayload b0 b1 len key s.rxCuts s)).rxAcc cuts' s := by
  have hpos : (atPayload b0 b1 len key cuts s).rxPos + raw.length =
      s.rxPos + (headerBytes s.params b1 + len.toNat) := by
    rw [atPayload_rxPos hkeyed, hraw, Nat.add_assoc]
  rw [atChecked, loadFrame, decodedInstr, Instr.ops_ofOpcode, Instr.opcode_ofOpcode, ← unmask_eq hkeyed raw s.fKey, hfield,
    ← hpos]
  rfl

/-- From the start of a frame the decoder reaches CHECK with the instruction that `decode` gives, in one and the same
state under every cut but for the cuts left. -/
theorem reaches_check {s : State} {i : Instr} {m n : Nat} (h : AtFrameStart s)
    (hdec : decode s.params (rxNext m s) = .complete i n) :
    ∃ acc, ∀ cuts, Brings n cuts → ∃ k left, Reaches k { s with rxCuts := cuts } (atChecked i n acc left s) := by
  obtain ⟨b0, b1, len, key, r, hhead, hmax, hlen, rfl, rfl⟩ := decode_eq_complete_iff.mp hdec
  obtain ⟨hconn, hp, he, hneed⟩ := h
  refine ⟨(consume (r.take len.toNat) s.rxCuts (atPayload b0 b1 len key s.rxCuts s)).rxAcc, fun cuts hb => ?_⟩
  have hstart : BetweenReads .rxHdr { s with rxCuts := cuts } := ⟨hconn, hp, he, hneed⟩
  have hnext : rxNext m { s with rxCuts := cuts } = rxNext m s :=
    rxNext_congr (s := s) (t := { s with rxCuts := cuts }) rfl rfl rfl m
  have hraw : (r.take len.toNat).length = len.toNat := List.length_take_of_le hlen
  obtain ⟨k1, cuts1, hrun1, hb1, m', hnext'⟩ := reaches_atPayload hstart (hnext ▸ hhead) hb
  have hpay : rxNext len.toNat (atPayload b0 b1 len key cuts1 { s with rxCuts := cuts }) = r.take len.toNat := by
    rw [← hnext', rxNext_take (hlen.trans (hnext' ▸ rxNext_length_le m' _))]
  obtain ⟨k2, cuts2, hrun2, -⟩ := reaches_takePayload (extra := 0) (betweenReads_atPayload hstart cuts1) hmax hpay hraw
    (hraw.symm ▸ hb1)
  rw [takePayload_atPayload (s := { s with rxCuts := cuts }) hhead.fields.field hhead.keyed hraw] at hrun2
  exact ⟨_, cuts2, reaches_trans hrun1 hrun2⟩

/-! ## O31, O32, O34 -/

/-- Settles O31: the four phases take the frame's parts off the stream one by one. -/
theorem decoderPhasesFollowDecodeBytes : Obligations.DecoderPhasesFollowDecodeBytes := by
  intro s i m n h hdec hb
  obtain ⟨acc, hall⟩ := reaches_check h hdec
  obtain ⟨k, left, hrun⟩ := hall s.rxCuts hb
  exact ⟨k, acc, left, hrun⟩

/-- Settles O34: the state in CHECK is the same under every cut. -/
theorem cutsOfTheStreamDoNotMatter : Obligations.CutsOfTheStreamDoNotMatter := by
  intro s cuts₁ cuts₂ i m n h hdec hb₁ hb₂
  obtain ⟨acc, hall⟩ := reaches_check h hdec
  obtain ⟨k₁, left₁, hrun₁⟩ := hall cuts₁ hb₁
  obtain ⟨k₂, left₂, hrun₂⟩ := hall cuts₂ hb₂
  obtain ⟨hwf, -⟩ := encodeOfDecodedBytes _ _ _ _ hdec
  exact ⟨k₁, k₂, left₁, left₂, atChecked i n acc left₁ s, hrun₁, hrun₂, rfl, fetchInstr_loadFrame hwf, rfl⟩

/-- Settles O32: the header is taken off the stream, and RX_PAY raises. -/
theorem tooLargeLengthEndsTheConnection : Obligations.TooLargeLengthEndsTheConnection := by
  intro s len m n ⟨hconn, hp, he, hneed⟩ hopen hans hdec hb
  obtain ⟨b0, b1, key, r, hhead, hmax, rfl⟩ := decode_eq_tooLarge_iff.mp hdec
  obtain ⟨k, cuts, hrun, -, -⟩ := reaches_atPayload (extra := 0) ⟨hconn, hp, he, hneed⟩ hhead hb
  have hpos := atPayload_rxPos (b0 := b0) (len := len) hhead.keyed cuts
  obtain ⟨hraise, hclose⟩ := oversizePayloadIsNotRead (atPayload b0 b1 len key cuts s) hconn rfl he hmax
  have hend := reaches_succ hraise (reaches_succ (hclose hopen hans) (reaches_refl _))
  exact ⟨_, _, reaches_trans hrun hend, rfl, rfl, rfl, rfl, hpos, rfl, rfl, rfl, rfl, rfl, rfl⟩

/-! ## A frame's whole life (R193 to R207) -/

/-- From the start of a frame the block reaches CHECK, where its step is the meaning of the decoded instruction. -/
theorem reaches_exec {s : State} {i : Instr} {m n : Nat} (h : AtFrameStart s)
    (hdec : decode s.params (rxNext m s) = .complete i n) (hb : Brings n s.rxCuts) :
    ∃ k acc left, Reaches k s (atChecked i n acc left s) ∧
      step (atChecked i n acc left s) = exec i (atChecked i n acc left s) := by
  obtain ⟨k, acc, left, hrun⟩ := decoderPhasesFollowDecodeBytes s i m n h hdec hb
  obtain ⟨hconn, -, he, -⟩ := h
  have hfetch : fetchInstr (atChecked i n acc left s) = i :=
    fetchInstr_loadFrame (encodeOfDecodedBytes _ _ _ _ hdec).1
  have hstep := step_of_atCheck (s := atChecked i n acc left s) ⟨hconn, rfl, he⟩
  rw [hfetch] at hstep
  exact ⟨k, acc, left, hrun, hstep⟩

/-- The reply to a valid data frame or ping is the encoder's result on it, a ping's with the opcode 10 (R198, R200 to
R202). -/
theorem dispatchOf_reply {i : Instr} (h : i.opcode ∈ [0, 1, 2, 9]) (s : State) :
    dispatchOf i s = { s with
      fOpcode := (dispatchOf i s).fOpcode, phase := .reply
      txBuf := encodeFrame (i.ops.frame (if i.opcode = 9 then 10 else i.opcode)) } := by
  cases i with
  | cont f | text f | binary f | ping f => rfl
  | _ => simp [Instr.opcode] at h

/-- Settles O59: the decode, CHECK with the dispatch, and the write of the reply. -/
theorem validFrameIsAnsweredWhole : Obligations.ValidFrameIsAnsweredWhole := by
  intro s i m n r h hdec hb hpop hv ho
  obtain ⟨k, acc, left, hrun, hstep⟩ := reaches_exec h hdec hb
  obtain ⟨hconn, -, he, -⟩ := h
  rw [exec_of_ok _ hv, dispatchOf_reply ho] at hstep
  generalize (dispatchOf i _).fOpcode = op at hstep
  have hwrite := (replyIsWrittenWhole
    { atChecked i n acc left s with
      verdict := .ok, fOpcode := op, phase := .reply
      txBuf := encodeFrame (i.ops.frame (if i.opcode = 9 then 10 else i.opcode)) } hconn rfl he).1 r hpop
  exact ⟨_, _, reaches_trans hrun (reaches_succ hstep (reaches_succ hwrite (reaches_refl _))), ⟨hconn, rfl, he, rfl⟩,
    rfl, rfl, rfl, rfl⟩

/-- A violation and a close lead to CLOSING: STATUS is the violation's code, or the peer's, or as it was (R196, R199). -/
theorem exec_closes {i : Instr} (s : State) (hlen : i.ops.payload.length = i.ops.len.toNat)
    (h : validate i.frame ≠ .ok ∨ i.opcode = 8) :
    ∃ v c, exec i s = .next { s with verdict := v, status := c, conn := .closing, phase := .clSend } ∧
      (∀ k d, validate i.frame = .err k d → c = d) ∧ (validate i.frame = .ok → i.ops.len = 0 → c = s.status) ∧
      (∀ c0 c1 reason, validate i.frame = .ok → i.ops.payload = c0 :: c1 :: reason → c = be16 c0 c1) := by
  obtain ⟨k, d, hv, hx⟩ | ⟨hv, hx⟩ := exec_cases i s
  · rw [hv]
    refine ⟨.err k d, d, hx, ?_, nofun, nofun⟩
    rintro _ _ ⟨⟩
    rfl
  · rw [hv] at h ⊢
    have ho : i.opcode = 8 := h.resolve_left (not_not.mpr rfl)
    cases i with
    | close f =>
      rw [dispatchOf, peerClose_writes] at hx
      refine ⟨.ok, _, hx, nofun, fun _ h0 => ?_, fun c0 c1 reason _ hp => ?_⟩
      · rw [peerClose_empty (f := f) _ h0]
      · rw [peerClose_code (f := f) _ (two_le_of_code (f := f) hlen hp) hp]
    | _ => simp [Instr.opcode] at ho

/-- From CL_SEND the close frame is written and the stream closed (R206, R207). -/
theorem reaches_closed {s : State} {r : Answers TxAnswer} (hconn : s.conn = .closing) (hp : s.phase = .clSend)
    (he : s.err = .none) (hpop : s.txAnswers.pop = some (.done, r)) (ha : s.closeAnswers = true) :
    Reaches 2 s { s with
      txAnswers := r, txBuf := [], closeSent := true, streamClosed := true, conn := .closed, phase := .done
      txLog := s.txLog ++
        [[0x88, 0x02, BitVec.ofNat 8 (s.status.toNat / 256), BitVec.ofNat 8 s.status.toNat]] } := by
  refine reaches_succ ((closeFrameCarriesStatus s hconn hp he).1 r hpop) (reaches_succ ?_ (reaches_refl _))
  exact streamIsClosedAtTheEnd _ hconn rfl he ha

/-- Settles O60: the decode, CHECK on the way to CLOSING, the close frame, and the stream's close. -/
theorem violationOrCloseEndsInOrder : Obligations.ViolationOrCloseEndsInOrder := by
  intro s i m n r h hdec hb hpop ha hclose
  obtain ⟨k, acc, left, hrun, hstep⟩ := reaches_exec h hdec hb
  obtain ⟨-, hlen, -, -⟩ := wellFormed_iff.mp (encodeOfDecodedBytes _ _ _ _ hdec).1
  obtain ⟨v, c, hexec, hstatus⟩ := exec_closes (atChecked i n acc left s) hlen hclose
  obtain ⟨hconn, -, he, -⟩ := h
  have hend := reaches_closed
    (s := { atChecked i n acc left s with verdict := v, status := c, conn := .closing, phase := .clSend })
    rfl rfl he hpop ha
  exact ⟨_, _, reaches_trans hrun (reaches_succ (hstep.trans hexec) hend), rfl, rfl, rfl, he, rfl, rfl, rfl, hstatus⟩

end Sys2Proof.Machine
end

section
/-! A frame cut short (40_frame_decode.md R112): the read that starves fails with the stream's end, or waits for ever. -/

namespace Sys2Proof.Machine

/-! ## The outcome of a frame cut short -/

/-- The decoder's phases lie in OPEN (R22). -/
theorem Phase.of_isReading {q : Phase} (h : q.isReading = true) : q.conn = .opened ∧ q ≠ .done := by
  cases q with
  | rxHdr | rxExt | rxKey | rxPay => exact ⟨rfl, nofun⟩
  | _ => cases h

/-- `t` is CLOSED after an IO failure that used up the bytes left in `s`, with no verdict and nothing written (R262). -/
def EndsShort (s t : State) : Prop :=
  t.conn = .closed ∧ t.phase = .done ∧ t.err = .ioFailure ∧ t.streamClosed = true ∧
    t.rxPos = s.rxPos + (rxRest s).length ∧ t.txLog = s.txLog ∧ t.closeSent = s.closeSent ∧ t.status = s.status ∧
    t.verdict = s.verdict

/-- The block stands in a read of the decoder. -/
def InRead (t : State) : Prop := t.conn = .opened ∧ t.phase.isReading = true ∧ t.err = .none

/-- From `s` the run ends short when the stream ends, and stays in its reads when the stream never answers. -/
structure FailsOrWaits (s : State) : Prop where
  fails : s.closeAnswers = true → s.rxEnd ≠ .never →
    Brings ((rxRest s).length + 1) s.rxCuts → ∃ k t, Reaches k s t ∧ EndsShort s t
  waits : s.rxEnd = .never → ∀ k, ∃ t, Reaches k s t ∧ InRead t

/-! ## What a decoder phase leaves alone -/

/-- `u` with PHASE and the frame register set taken from `v`. -/
def withFrame (v u : State) : State :=
  { u with
    phase := v.phase, fFin := v.fFin, fRsv := v.fRsv, fOpcode := v.fOpcode, fMask := v.fMask, fLen7 := v.fLen7
    fLen := v.fLen, fKey := v.fKey, fPayload := v.fPayload }

/-- From `u` to `v` only PHASE and the frame register set change. -/
def FrameOnly (u v : State) : Prop := v = withFrame v u

theorem FrameOnly.eq {u v : State} (h : FrameOnly u v) : v = withFrame v u := h

section
variable {u v : State} (h : FrameOnly u v)
include h

theorem FrameOnly.rxBytes : v.rxBytes = u.rxBytes := by rw [h.eq]; rfl
theorem FrameOnly.rxEnd : v.rxEnd = u.rxEnd := by rw [h.eq]; rfl
theorem FrameOnly.rxPos : v.rxPos = u.rxPos := by rw [h.eq]; rfl
theorem FrameOnly.rxCuts : v.rxCuts = u.rxCuts := by rw [h.eq]; rfl
theorem FrameOnly.closeAnswers : v.closeAnswers = u.closeAnswers := by rw [h.eq]; rfl
theorem FrameOnly.txLog : v.txLog = u.txLog := by rw [h.eq]; rfl
theorem FrameOnly.closeSent : v.closeSent = u.closeSent := by rw [h.eq]; rfl
theorem FrameOnly.status : v.status = u.status := by rw [h.eq]; rfl
theorem FrameOnly.verdict : v.verdict = u.verdict := by rw [h.eq]; rfl

end

theorem takeHeader_frameOnly (c : List Byte) (u : State) : FrameOnly u (takeHeader c u) := by
  unfold takeHeader
  split <;> rfl

theorem takeExt16_frameOnly (c : List Byte) (u : State) : FrameOnly u (takeExt16 c u) := by
  unfold takeExt16
  split <;> rfl

theorem takeKey_frameOnly (c : List Byte) (u : State) : FrameOnly u (takeKey c u) := by
  unfold takeKey
  split <;> rfl

section
variable {s v t : State} {c rest : List Byte} {r : Answers Nat}

/-- The bytes left once `c` is consumed. -/
theorem rxRest_of_frameOnly (h : FrameOnly (consume c r s) v) (hc : rxRest s = c ++ rest) : rxRest v = rest := by
  have hbytes : v.rxBytes = s.rxBytes := h.rxBytes
  have hpos : v.rxPos = s.rxPos + c.length := h.rxPos
  rw [rxRest, hbytes, hpos, ← List.drop_drop, ← rxRest, hc, List.drop_left]

/-- What ends short once `c` is consumed ended short before. -/
theorem EndsShort.of_frameOnly (h : FrameOnly (consume c r s) v) (hc : rxRest s = c ++ rest) (ht : EndsShort v t) :
    EndsShort s t := by
  obtain ⟨hconn, hphase, herr, hclosed, hpos, hlog, hsent, hstatus, hverdict⟩ := ht
  have hv : v.rxPos = s.rxPos + c.length := h.rxPos
  refine ⟨hconn, hphase, herr, hclosed, ?_, hlog.trans h.txLog, hsent.trans h.closeSent,
    hstatus.trans h.status, hverdict.trans h.verdict⟩
  rw [hpos, rxRest_of_frameOnly h hc, hv, hc, List.length_append, Nat.add_assoc]

/-- A phase that reads nothing passes the outcome on. -/
theorem failsOrWaits_of_step (hs : InRead s) (hneed : s.rxNeed = 0) (hstep : step s = .next v) (hkeep : FrameOnly s v)
    (hv : FailsOrWaits v) : FailsOrWaits s := by
  have hkeep' : FrameOnly (consume [] s.rxCuts s) v := by rwa [consume_nil hneed]
  have hrest := rxRest_of_frameOnly hkeep' rfl
  have hend : v.rxEnd = s.rxEnd := hkeep.rxEnd
  constructor
  · intro hans hne hb
    obtain ⟨k, t, hrun, ht⟩ := hv.fails (hkeep.closeAnswers.trans hans) (hend ▸ hne)
      (by rw [hrest]; exact hkeep.rxCuts ▸ hb)
    exact ⟨_, t, reaches_succ hstep hrun, ht.of_frameOnly hkeep' rfl⟩
  · intro hnever k
    cases k with
    | zero => exact ⟨s, reaches_refl s, hs⟩
    | succ k =>
      obtain ⟨t, hrun, ht⟩ := hv.waits (hend.trans hnever) k
      exact ⟨t, reaches_succ hstep hrun, ht⟩

end

/-! ## The stream exhausted within a read (R53, R54) -/

section
variable {s : State} {n : BitVec 64} {m : Nat} {cuts r : Answers Nat} {cut : Nat} {cont : List Byte → State → State}

/-- No byte is left once all of them are gathered. -/
theorem rxNext_midRead_all (ht : s.rxTail = .none) (j : Nat) :
    rxNext j (midRead n (rxRest s).length cuts s) = [] := by
  have hdrop : rxRest (midRead n (rxRest s).length cuts s) = (rxRest s).drop (rxRest s).length :=
    List.drop_drop.symm
  rw [rxNext_finite (s := midRead n (rxRest s).length cuts s) ht, hdrop, List.drop_length, List.take_nil]

/-- An exhausted stream that never ends leaves the read where it is. -/
theorem streamRead_midRead_never (hm : m < n.toNat) (hnil : ∀ j, rxNext j (midRead n m cuts s) = [])
    (hend : s.rxEnd = .never) (hpop : cuts.pop = some (cut, r)) (hcut : 0 < cut) :
    streamRead n cont (midRead n m cuts s) = midRead n m cuts s := by
  have hans := rxAnswer_of_pop (max := n.toNat - m) (s := midRead n m cuts s) hpop hcut
  rw [if_pos (hnil _), show (midRead n m cuts s).rxEnd = .never from hend] at hans
  simp only [streamRead, beginRead_under_way (midRead_need_ne_zero hm), midRead_need hm.le, hans]

/-- An exhausted stream that ends makes the read raise. -/
theorem streamRead_midRead_ended (hm : m < n.toNat) (hnil : ∀ j, rxNext j (midRead n m cuts s) = [])
    (hend : s.rxEnd ≠ .never) (hpop : cuts.pop = some (cut, r)) (hcut : 0 < cut) :
    ∃ cause, streamRead n cont (midRead n m cuts s) = errorEntry (.ioFailure cause) (midRead n m r s) := by
  have hans := rxAnswer_of_pop (max := n.toNat - m) (s := midRead n m cuts s) hpop hcut
  have hrest : (midRead n m cuts s).rxCuts.rest = r := Answers.rest_of_pop hpop
  rw [if_pos (hnil _)] at hans
  cases hs : (midRead n m cuts s).rxEnd with
  | never => exact absurd hs hend
  | eof =>
    rw [hs] at hans
    refine ⟨.shortRead, ?_⟩
    simp only [streamRead, beginRead_under_way (midRead_need_ne_zero hm), midRead_need hm.le, hans, hrest]
    rfl
  | error =>
    rw [hs] at hans
    refine ⟨.streamError, ?_⟩
    simp only [streamRead, beginRead_under_way (midRead_need_ne_zero hm), midRead_need hm.le, hans, hrest]
    rfl

end

/-! ## A read that may starve -/

/-- `s` is about to begin a read of `n` bytes of a finite stream, and the run fails or waits from where the read would
end. -/
structure BeforeRead (q : Phase) (n : BitVec 64) (cont : List Byte → State → State) (s : State) : Prop where
  between : BetweenReads q s
  reading : q.isReading = true
  finite : s.rxTail = .none
  stands : StandsInRead n cont s
  some_byte : n ≠ 0
  keeps : ∀ c u, FrameOnly u (cont c u)
  after : ∀ c rest r, rxRest s = c ++ rest → c.length = n.toNat → FailsOrWaits (cont c (consume c r s))

section
variable {q : Phase} {s : State} {n : BitVec 64} {cont : List Byte → State → State}

theorem BeforeRead.pos (h : BeforeRead q n cont s) : 0 < n.toNat :=
  Nat.pos_of_ne_zero fun h0 => h.some_byte (BitVec.eq_of_toNat_eq h0)

theorem BeforeRead.rxRest_eq (h : BeforeRead q n cont s) :
    rxRest s = rxNext n.toNat s ++ (rxRest s).drop n.toNat := by
  rw [rxNext_finite h.finite, List.take_append_drop]

theorem BeforeRead.length_rxNext (h : BeforeRead q n cont s) :
    (rxNext n.toNat s).length = min n.toNat (rxRest s).length := by
  rw [rxNext_finite h.finite, List.length_take]

theorem BeforeRead.inRead (h : BeforeRead q n cont s) : InRead s :=
  ⟨h.between.conn, (congrArg Phase.isReading h.between.phase).trans h.reading, h.between.err⟩

/-- With all of its bytes on the stream the read ends, and the run fails after it. -/
theorem BeforeRead.fails_after (h : BeforeRead q n cont s) (hle : n.toNat ≤ (rxRest s).length)
    (hans : s.closeAnswers = true) (hend : s.rxEnd ≠ .never)
    (hb : Brings ((rxRest s).length + 1) s.rxCuts) : ∃ k t, Reaches k s t ∧ EndsShort s t := by
  have hsplit := h.rxRest_eq
  have hlen : (rxNext n.toNat s).length = n.toNat := by rw [h.length_rxNext]; omega
  have hleft : (rxRest s).length = n.toNat + ((rxRest s).drop n.toNat).length := by rw [List.length_drop]; omega
  generalize (rxRest s).drop n.toNat = rest at hsplit hleft
  obtain ⟨k, r, hrun, hbr⟩ := reaches_of_read (extra := rest.length + 1) h.stands h.between.need h.some_byte rfl hlen
    (by rwa [hlen, ← Nat.add_assoc, ← hleft])
  have hafter := h.after _ _ r hsplit hlen
  have hkeep := h.keeps (rxNext n.toNat s) (consume (rxNext n.toNat s) r s)
  generalize cont (rxNext n.toNat s) (consume (rxNext n.toNat s) r s) = v at hrun hafter hkeep
  obtain ⟨k', t, hrun', ht⟩ := hafter.fails (hkeep.closeAnswers.trans hans) (hkeep.rxEnd ▸ hend)
    (by rw [rxRest_of_frameOnly hkeep hsplit]; exact hkeep.rxCuts ▸ hbr)
  exact ⟨_, t, reaches_trans hrun hrun', ht.of_frameOnly hkeep hsplit⟩

/-- With too few bytes on the stream the read takes them all, and raises. -/
theorem BeforeRead.fails_within (h : BeforeRead q n cont s) (hlt : (rxRest s).length < n.toNat)
    (hans : s.closeAnswers = true) (hend : s.rxEnd ≠ .never)
    (hb : Brings ((rxRest s).length + 1) s.rxCuts) : ∃ k t, Reaches k s t ∧ EndsShort s t := by
  have hlen : (rxNext n.toNat s).length = (rxRest s).length := by rw [h.length_rxNext]; omega
  obtain ⟨k, r, hbr, ⟨hl, -⟩ | ⟨-, hgather⟩⟩ := reaches_gathered (m := 0) h.stands hlen h.pos (Nat.zero_le _) hb
  · omega
  obtain ⟨cut, r', hfirst, -⟩ := hbr.firstCut (n := 0)
  obtain ⟨k', cuts, hskip, hpop, hcut⟩ := reaches_firstCut h.stands hlt (rxNext_length_of_le hlen.ge) hfirst
  obtain ⟨cause, hraise⟩ := streamRead_midRead_ended (cont := cont) hlt (rxNext_midRead_all h.finite) hend hpop hcut
  have hstep := (h.stands _ _ _ _).trans (congrArg _ hraise)
  obtain ⟨hopened, hread, -⟩ := h.inRead
  obtain ⟨hconn, hnotDone⟩ := Phase.of_isReading hread
  have hclose := step_errorEntry_closes (e := .ioFailure cause) (s := midRead n (rxRest s).length r' s)
    (hconn.trans hopened.symm) hnotDone (.inr hans)
  have hrun := reaches_trans (reaches_trans hgather hskip)
    (reaches_succ hstep (reaches_succ hclose (reaches_refl _)))
  exact ⟨_, _, reaches_of_step_eq (step_midRead_zero h.stands h.between.need h.some_byte) hrun,
    rfl, rfl, rfl, rfl, rfl, rfl, rfl, rfl, rfl⟩

/-- A read under way on a stream that never ends stands in its phase at every step, or the run waits after it. -/
theorem BeforeRead.waits_midRead (h : BeforeRead q n cont s) (hend : s.rxEnd = .never) (k : Nat) {m : Nat}
    (hm : m < n.toNat) (hml : m ≤ (rxNext n.toNat s).length) (cuts : Answers Nat) :
    ∃ t, Reaches k (midRead n m cuts s) t ∧ InRead t := by
  induction k generalizing m cuts with
  | zero => exact ⟨_, reaches_refl _, h.inRead⟩
  | succ k ih =>
    have hstep := h.stands (n - BitVec.ofNat 64 m) (rxNext m s) (s.rxPos + m) cuts
    have stays {t : State} (hread : streamRead n cont (midRead n m cuts s) = t)
        (hrun : ∃ u, Reaches k t u ∧ InRead u) : ∃ u, Reaches (k + 1) (midRead n m cuts s) u ∧ InRead u := by
      obtain ⟨u, hrun, hu⟩ := hrun
      exact ⟨u, reaches_succ (hstep.trans (congrArg _ hread)) hrun, hu⟩
    match hpop : cuts.pop with
    | none => exact stays (streamRead_midRead_none hm hpop) (ih hm hml cuts)
    | some (0, r) =>
      exact stays (streamRead_midRead_zero hm (rxNext_length_of_le hml) hpop) (ih hm hml r)
    | some (cut + 1, r) =>
      obtain hlast | hlt := hml.eq_or_lt
      · have hall : m = (rxRest s).length := by rw [h.length_rxNext] at hlast; omega
        subst hall
        exact stays (streamRead_midRead_never hm (rxNext_midRead_all h.finite) hend hpop (Nat.succ_pos cut))
          (ih hm hml cuts)
      · obtain ⟨m', -, hm'l, hread⟩ :=
          streamRead_midRead_brings (n := n) (cont := cont) hlt hpop (Nat.succ_pos cut)
        by_cases hall : m' = n.toNat
        · subst hall
          have hlen := (rxNext_length_le n.toNat s).antisymm hm'l
          rw [if_pos rfl, midRead_all h.some_byte hlen] at hread
          have hafter := h.after _ _ r h.rxRest_eq hlen
          exact stays hread (hafter.waits ((h.keeps _ _).rxEnd.trans hend) k)
        · rw [if_neg hall] at hread
          exact stays hread (ih (by have := rxNext_length_le n.toNat s; omega) hm'l r)

/-- A read that may starve passes the outcome on. -/
theorem BeforeRead.failsOrWaits (h : BeforeRead q n cont s) : FailsOrWaits s := by
  constructor
  · intro hans hend hb
    obtain hlt | hle := Nat.lt_or_ge (rxRest s).length n.toNat
    · exact h.fails_within hlt hans hend hb
    · exact h.fails_after hle hans hend hb
  · intro hend k
    cases k with
    | zero =>
      exact ⟨s, reaches_refl s, h.inRead⟩
    | succ k =>
      obtain ⟨t, hrun, ht⟩ := h.waits_midRead hend (k + 1) h.pos (Nat.zero_le _) s.rxCuts
      exact ⟨t, reaches_of_step_eq (step_midRead_zero h.stands h.between.need h.some_byte) hrun, ht⟩

end

/-! ## The decoder's phases on a frame cut short -/

/-- The payload of a length that fits has not all arrived. -/
def ShortPayload (p : Params) (len : BitVec 64) (r : List Byte) : Prop :=
  len.toNat ≤ p.maxPayload.toNat ∧ r.length < len.toNat

/-- Where a key stands in front, the payload after it is short. -/
def ShortKey (p : Params) (masked : Bool) (len : BitVec 64) (s : List Byte) : Prop :=
  ∀ key r, decodeKey (keyed p masked) s = some (key, r) → ShortPayload p len r

/-- Where a length stands in front, the key or the payload after it is short. -/
def ShortLength (p : Params) (masked : Bool) (len7 : BitVec 7) (s : List Byte) : Prop :=
  ∀ len r, decodeLength len7 s = some (len, r) → ShortKey p masked len r

/-- After two bytes of a string that needs more, the length, the key or the payload is short (R112). -/
theorem shortLength_of_needMore {p : Params} {b0 b1 : Byte} {s : List Byte}
    (h : decode p (b0 :: b1 :: s) = .needMore) : ShortLength p (maskBit b1) (len7Bits b1) s := by
  intro len r hlen key r' hkey
  obtain ⟨hfields, rfl⟩ := decodeLength_eq_some_iff.mp hlen
  obtain ⟨hkeyed, rfl⟩ := decodeKey_eq_some_iff.mp hkey
  rw [decode_of_header ⟨hfields, hkeyed, rfl⟩] at h
  split at h
  · cases h
  · split at h
    · exact ⟨Nat.le_of_not_lt ‹_›, ‹_›⟩
    · cases h

section
variable {s : State}

theorem failsOrWaits_rxPay (h : BetweenReads .rxPay s) (ht : s.rxTail = .none)
    (hshort : ShortPayload s.params s.fLen (rxRest s)) : FailsOrWaits s := by
  obtain ⟨hfit, hlt⟩ := hshort
  have h0 : s.fLen ≠ 0 := fun h0 => by simp [h0] at hlt
  refine BeforeRead.failsOrWaits ⟨h, rfl, ht, standsInRead_rxPay h hfit h0, h0, fun _ _ => rfl, ?_⟩
  intro c rest r hrest hlen
  rw [hrest, List.length_append] at hlt
  omega

theorem failsOrWaits_rxKey (h : BetweenReads .rxKey s) (ht : s.rxTail = .none)
    (hshort : ShortKey s.params s.fMask s.fLen (rxRest s)) : FailsOrWaits s := by
  cases hk : keyed s.params s.fMask with
  | false =>
    have hstep := step_rxKey h.conn h.phase h.err
    rw [stepRxKey, hk, if_neg Bool.false_ne_true] at hstep
    have hpay : ShortPayload s.params s.fLen (rxRest s) := hshort none _ (by rw [hk]; rfl)
    exact failsOrWaits_of_step ⟨h.conn, by rw [h.phase]; rfl, h.err⟩ h.need hstep rfl
      (failsOrWaits_rxPay ⟨h.conn, rfl, h.err, h.need⟩ ht hpay)
  | true =>
    refine BeforeRead.failsOrWaits ⟨h, rfl, ht, standsInRead_rxKey h hk, by decide, takeKey_frameOnly, ?_⟩
    intro c rest r hrest hlen
    match c, hlen with
    | [k0, k1, k2, k3], _ =>
      have hpay : ShortPayload s.params s.fLen rest := hshort _ _ (by rw [hk, hrest]; rfl)
      refine failsOrWaits_rxPay ⟨h.conn, rfl, h.err, rfl⟩ ht ?_
      rwa [rxRest_of_frameOnly (takeKey_frameOnly _ _) hrest]

theorem failsOrWaits_rxExt (h : BetweenReads .rxExt s) (ht : s.rxTail = .none)
    (hshort : ShortLength s.params s.fMask s.fLen7 (rxRest s)) : FailsOrWaits s := by
  obtain ⟨hle, hform⟩ | ⟨h126, -⟩ | ⟨h127, -⟩ := LenForm.ofLen7_cases s.fLen7
  · have hstep := step_rxExt h.conn h.phase h.err
    rw [stepRxExt_short hle] at hstep
    have hkey := hshort (s.fLen7.setWidth 64) (rxRest s) (by simp only [decodeLength, hform])
    exact failsOrWaits_of_step ⟨h.conn, by rw [h.phase]; rfl, h.err⟩ h.need hstep rfl
      (failsOrWaits_rxKey ⟨h.conn, rfl, h.err, h.need⟩ ht hkey)
  · refine BeforeRead.failsOrWaits ⟨h, rfl, ht, standsInRead_ext16 h h126, by decide, takeExt16_frameOnly, ?_⟩
    intro c rest r hrest hlen
    match c, hlen with
    | [e0, e1], _ =>
      have hkey := hshort ((be16 e0 e1).setWidth 64) rest (by rw [h126, hrest]; rfl)
      refine failsOrWaits_rxKey ⟨h.conn, rfl, h.err, rfl⟩ ht ?_
      rwa [rxRest_of_frameOnly (takeExt16_frameOnly _ _) hrest]
  · refine BeforeRead.failsOrWaits ⟨h, rfl, ht, standsInRead_ext64 h h127, by decide, fun _ _ => rfl, ?_⟩
    intro c rest r hrest hlen
    have hdec : decodeLength 127 (c ++ rest) = some (be64 c, rest) := by
      match c, hlen with
      | [e0, e1, e2, e3, e4, e5, e6, e7], _ => rfl
    have hkey := hshort (be64 c) rest (by rw [h127, hrest]; exact hdec)
    refine failsOrWaits_rxKey ⟨h.conn, rfl, h.err, rfl⟩ ht ?_
    rwa [rxRest_of_frameOnly (v := takeExt64 c (consume c r s)) rfl hrest]

theorem failsOrWaits_rxHdr (h : BetweenReads .rxHdr s) (ht : s.rxTail = .none)
    (hshort : decode s.params (rxRest s) = .needMore) : FailsOrWaits s := by
  refine BeforeRead.failsOrWaits ⟨h, rfl, ht, standsInRead_rxHdr h, by decide, takeHeader_frameOnly, ?_⟩
  intro c rest r hrest hlen
  match c, hlen with
  | [b0, b1], _ =>
    have hlength := shortLength_of_needMore (hrest ▸ hshort)
    refine failsOrWaits_rxExt ⟨h.conn, rfl, h.err, rfl⟩ ht ?_
    rwa [rxRest_of_frameOnly (takeHeader_frameOnly _ _) hrest]

end

/-- Settles O33: each phase passes the outcome back to the one before it, from RX_PAY to RX_HDR. -/
theorem cutShortFrameFailsOrWaits : Obligations.CutShortFrameFailsOrWaits := by
  intro s ⟨hconn, hphase, herr, hneed⟩ ht hdec
  obtain ⟨hfails, hwaits⟩ := failsOrWaits_rxHdr ⟨hconn, hphase, herr, hneed⟩ ht hdec
  exact ⟨fun _ => hfails, hwaits⟩

end Sys2Proof.Machine
end
